-- ==== Sys2Proof/Word.lean ====
section
/-! DEFINITION. The data types of the engine (00_scope.md R9 to R11): bytes, 32-bit register values, controller
state codes, four-fold groups, blocks. -/

namespace Sys2Proof

/-- A byte: bits 7 (the "top bit") down to 0 (R10). -/
abbrev Byte := BitVec 8

/-- The value of a host register and of the bus data, `REG_WIDTH` = 32 bits (R9). -/
abbrev Word := BitVec 32

/-- A byte offset in the register window, `ADDR_WIDTH` = 6 bits (R9, R60). -/
abbrev Offset := BitVec 6

/-- A value of the controller state `cs`, 4 bits (R36). -/
abbrev StateCode := BitVec 4

/-- Four like things, numbered 0 to 3: the rows of a column, the columns of a block, the registers of a bank. -/
@[ext] structure Four (α : Type) where
  e0 : α
  e1 : α
  e2 : α
  e3 : α
  deriving DecidableEq, Repr

namespace Four

variable {α β γ : Type}

/-- Element number `i`. -/
def get (v : Four α) (i : Fin 4) : α :=
  match i with
  | 0 => v.e0
  | 1 => v.e1
  | 2 => v.e2
  | 3 => v.e3

/-- Replace element number `i`. -/
def set (v : Four α) (i : Fin 4) (x : α) : Four α :=
  match i with
  | 0 => { v with e0 := x }
  | 1 => { v with e1 := x }
  | 2 => { v with e2 := x }
  | 3 => { v with e3 := x }

/-- The group whose element number `i` is `f i`. -/
def ofFn (f : Fin 4 → α) : Four α := ⟨f 0, f 1, f 2, f 3⟩

/-- All four elements the same. -/
def fill (x : α) : Four α := ⟨x, x, x, x⟩

/-- Apply `f` to each element. -/
def map (f : α → β) (v : Four α) : Four β := ofFn fun i => f (v.get i)

/-- Combine two groups element by element. -/
def zipWith (f : α → β → γ) (u : Four α) (v : Four β) : Four γ := ofFn fun i => f (u.get i) (v.get i)

end Four

/-- A column: a vector of 4 bytes, element `r` in row `r` (R11). -/
abbrev Column := Four Byte

/-- A block: a 4x4 grid of bytes, held as its four columns (R11: bytes go down column 0 first, then column 1). -/
abbrev Block := Four Column

namespace Block

/-- `B[r][c]`, row `r` and column `c` (R11). -/
def cell (B : Block) (r c : Fin 4) : Byte := (B.get c).get r

/-- The block with `B[r][c] = f r c`. -/
def ofFn (f : Fin 4 → Fin 4 → Byte) : Block := Four.ofFn fun c => Four.ofFn fun r => f r c

/-- The block of all 0x00 bytes. -/
def zero : Block := Four.fill (Four.fill 0x00#8)

end Block

end Sys2Proof
end

