-- ==== Sys2Proof/Config.lean ====
section
/-! DEFINITION. What the spec leaves to an implementation or to a platform: parameters with a value the spec gives
(00_scope.md R9), and values it leaves open, which have no body here, so that nothing can depend on one. The
reference tables `SBOX` and `RCON` are in Machine/Field.lean. -/

namespace Sys2Proof.Config

/-- `RCON_LEN` (R9, R106; decision D7). -/
abbrev rconLen : Nat := 10

/-- DESIGN CHOICE (log 4), safe: `bus_rdata` of a bus cycle with both strobes asserted "is any value" (R84, S1).
The n-th such cycle returns the n-th value. -/
opaque freeRdata : Nat → Word

/-- DESIGN CHOICE (log 7), safe: what the round-constant table would give at an index outside 0 to `RCON_LEN`-1.
The spec says that such an index never occurs (R61). -/
opaque rconBeyond : BitVec 4 → Byte

/-- `ENGINE_BASE`, where the register window sits in a system's address map: the platform's choice (R68, S7). -/
opaque engineBase : Nat

end Sys2Proof.Config
end

