-- ==== Sys2Proof/Machine/BlockTransform.lean ====
section
/-! DEFINITION. The block transform: pure functions on blocks (41_block_transform.md). Row and column numbers are
`Fin 4`, whose addition is modulo 4. -/

namespace Sys2Proof.Machine

/-- SubBytes (R120). -/
def subBytes (A : Block) : Block := Block.ofFn fun r c => sbox (A.cell r c)

/-- ShiftRows: row `r` rotated toward column 0 by `r` (R121). -/
def shiftRows (A : Block) : Block := Block.ofFn fun r c => A.cell r (c + r)

/-- SubShift (R124). -/
def subShift (A : Block) : Block := shiftRows (subBytes A)

/-- MixColumn, row by row as R125 writes it out. -/
def mixColumn (a : Column) : Column where
  e0 := gmul2 a.e0 ^^^ gmul3 a.e1 ^^^ gmul1 a.e2 ^^^ gmul1 a.e3
  e1 := gmul1 a.e0 ^^^ gmul2 a.e1 ^^^ gmul3 a.e2 ^^^ gmul1 a.e3
  e2 := gmul1 a.e0 ^^^ gmul1 a.e1 ^^^ gmul2 a.e2 ^^^ gmul3 a.e3
  e3 := gmul3 a.e0 ^^^ gmul1 a.e1 ^^^ gmul1 a.e2 ^^^ gmul2 a.e3

/-- MixColumns (R126). -/
def mixColumns (A : Block) : Block := A.map mixColumn

/-- AddRoundKey, also the XOR of two blocks (R128; 00_scope.md R12). -/
def addRoundKey (A Kr : Block) : Block := Block.ofFn fun r c => A.cell r c ^^^ Kr.cell r c

/-- The round function (R131). -/
def roundFn (A Kr : Block) (final : Bool) : Block :=
  addRoundKey (if final then subShift A else mixColumns (subShift A)) Kr

end Sys2Proof.Machine
end

