-- ==== Sys2Proof/Syntax.lean ====
section
/-! DEFINITION. The instructions: one constructor per row of spec/opcode_table.json (30_encoding.md R83, R85), the
register names of the window (10_state.md R21), and the lines of a host script (30_encoding.md R88, R89). -/

namespace Sys2Proof

/-- The host registers (10_state.md R21). A column number is 0 to 3 (30_encoding.md R82). -/
inductive Reg where
  | ctrl
  | status
  | roundCount
  | iterCount
  | key (n : Fin 4)
  | block (n : Fin 4)
  | result (n : Fin 4)
  deriving DecidableEq, Repr

/-- One host bus transaction (`rd…`, `wr…`; R83) or one controller micro-operation (R85). -/
inductive Instr where
  | rdCtrl
  | wrCtrl (data : Word)
  | rdStatus
  | wrStatus (data : Word)
  | rdRoundCount
  | wrRoundCount (data : Word)
  | rdIterCount
  | wrIterCount (data : Word)
  | rdKey (n : Fin 4)
  | wrKey (n : Fin 4) (data : Word)
  | rdBlock (n : Fin 4)
  | wrBlock (n : Fin 4) (data : Word)
  | rdResult (n : Fin 4)
  | wrResult (n : Fin 4) (data : Word)
  | idle
  | load
  | chain
  | snap
  | kinit
  | whiten
  | subshift
  | mixcol
  | kexp
  | ark
  | finish
  deriving DecidableEq, Repr

/-- The two formats (R80). -/
inductive Format where
  | bus
  | uop
  deriving DecidableEq, Repr

/-- An encoded instruction: a 39-bit `BUS` word or a 4-bit `UOP` code (R80). -/
inductive Encoded where
  | bus (w : BitVec 39)
  | uop (c : StateCode)
  deriving DecidableEq, Repr

/-- Why the decoder refuses an encoded instruction. -/
inductive DecodeRejection where
  /-- A `UOP` code 0xB to 0xF (R86). Safe: the machine faults where no hardware state exists. -/
  | reservedUopCode (c : StateCode)
  deriving DecidableEq, Repr

/-- A row of spec/opcode_table.json: a word `w` of the format is in the row when `w &&& mask = pattern`. -/
structure OpcodeRow where
  mnemonic : String
  format : Format
  pattern : Nat
  mask : Nat
  deriving DecidableEq, Repr

/-- How a host script names a register (R88): by name, or by a bracketed offset. -/
inductive ScriptReg where
  | name (r : Reg)
  | offset (off : Nat)
  deriving DecidableEq, Repr

/-- The register groups that hold a 16-byte block a host writes (`WRBLK`, R89). -/
inductive ScriptBank where
  | key
  | block
  deriving DecidableEq, Repr

/-- A line of a host script (R88), the pseudo-instructions of R89 among them. Numbers are kept as written, so that
WellFormed can refuse one that does not fit. -/
inductive ScriptLine where
  | wr (reg : ScriptReg) (imm : Nat)
  | rd (reg : ScriptReg)
  /-- `RD <reg> -> <imm32>`: the same read, annotated. -/
  | rdExpect (reg : ScriptReg) (imm : Nat)
  | start
  /-- `WRBLK <bank>, <32 hex digits>`: the digits read as one number, digit 0 the most significant. -/
  | wrblk (bank : ScriptBank) (digits : Nat)
  | rdblkResult
  | poll (reg : ScriptReg) (mask value : Nat)
  | wait
  deriving DecidableEq, Repr

end Sys2Proof
end

