-- ==== Sys2Proof/WellFormed.lean ====
section
/-! DEFINITION. The checks on syntax. An `Instr` needs none: its column numbers and data are bounded by their types,
and "no encoding is illegal" in the `BUS` format (30_encoding.md R86). The checks are those of the `UOP` codes (R86)
and of the host-script syntax (R88, R89). -/

namespace Sys2Proof

/-- A `UOP` code is one of the eleven of R85; 0xB to 0xF are reserved (R86). -/
def StateCode.legal (c : StateCode) : Bool := c.toNat ≤ 0xA

/-- Every `BUS` word is legal; a `UOP` code is legal below the reserved ones (R86). -/
def Encoded.wf : Encoded → Bool
  | .bus _ => true
  | .uop c => StateCode.legal c

/-- A bracketed offset is aligned and in `[0x00]`..`[0x3C]` (R88). -/
def ScriptReg.wf : ScriptReg → Bool
  | .name _ => true
  | .offset off => off % 4 == 0 && off ≤ 0x3C

/-- `<imm32>`: 0 to 4294967295 (R88). -/
def imm32Fits (v : Nat) : Bool := v ≤ 4294967295

/-- A well-formed host-script line (R88, R89). -/
def ScriptLine.wf : ScriptLine → Bool
  | .wr reg imm => reg.wf && imm32Fits imm
  | .rd reg => reg.wf
  | .rdExpect reg imm => reg.wf && imm32Fits imm
  | .start => true
  | .wrblk _ digits => digits < 2 ^ 128
  | .rdblkResult => true
  | .poll reg mask value => reg.wf && imm32Fits mask && imm32Fits value
  | .wait => true

end Sys2Proof
end

