-- ==== Sys2Proof/Decode.lean ====
section
/-! DEFINITION. The encodings (30_encoding.md): fields of a `BUS` word, the decoder, the `UOP` codes, the encoder and
the opcode table. -/

namespace Sys2Proof

/-! ## Codes of the controller states (R85) -/

abbrev csIdle : StateCode := 0x0#4
abbrev csLoad : StateCode := 0x1#4
abbrev csChain : StateCode := 0x2#4
abbrev csSnap : StateCode := 0x3#4
abbrev csKinit : StateCode := 0x4#4
abbrev csWhiten : StateCode := 0x5#4
abbrev csSubshift : StateCode := 0x6#4
abbrev csMixcol : StateCode := 0x7#4
abbrev csKexp : StateCode := 0x8#4
abbrev csArk : StateCode := 0x9#4
abbrev csFinish : StateCode := 0xA#4

/-! ## Fields of a `BUS` word (R81) -/

/-- `WE`, bit 38. -/
def busWe (w : BitVec 39) : Bool := w.getLsbD 38

/-- `OFF`, bits 37:32. -/
def busOff (w : BitVec 39) : Offset := w.extractLsb' 32 6

/-- `DATA`, bits 31:0. -/
def busData (w : BitVec 39) : Word := w.extractLsb' 0 32

/-- A two-bit field as a number 0 to 3. -/
def fieldFin4 (b : BitVec 2) : Fin 4 := b.toFin

/-! ## Decoding -/

/-- The register an offset selects: `OFF[5:4]` is the group, `OFF[3:2]` the register within it, and `OFF[1:0]` is
ignored (R81, R83; 20_memory.md R65). -/
def regOfOffset (off : Offset) : Reg :=
  let n := fieldFin4 (off.extractLsb' 2 2)
  match fieldFin4 (off.extractLsb' 4 2) with
  | 0 =>
    match n with
    | 0 => .ctrl
    | 1 => .status
    | 2 => .roundCount
    | 3 => .iterCount
  | 1 => .key n
  | 2 => .block n
  | 3 => .result n

/-- The read transaction of a register (R83, rows with `WE` = 0). -/
def readInstr : Reg → Instr
  | .ctrl => .rdCtrl
  | .status => .rdStatus
  | .roundCount => .rdRoundCount
  | .iterCount => .rdIterCount
  | .key n => .rdKey n
  | .block n => .rdBlock n
  | .result n => .rdResult n

/-- The write transaction of a register (R83, rows with `WE` = 1). -/
def writeInstr (d : Word) : Reg → Instr
  | .ctrl => .wrCtrl d
  | .status => .wrStatus d
  | .roundCount => .wrRoundCount d
  | .iterCount => .wrIterCount d
  | .key n => .wrKey n d
  | .block n => .wrBlock n d
  | .result n => .wrResult n d

/-- Decode a `BUS` word: total, no combination is illegal (R83). -/
def decodeBus (w : BitVec 39) : Instr :=
  if busWe w then writeInstr (busData w) (regOfOffset (busOff w)) else readInstr (regOfOffset (busOff w))

/-- Decode a `UOP` code (R85); 0xB to 0xF are reserved (R86). -/
def decodeUop (c : StateCode) : Except DecodeRejection Instr :=
  if c = csIdle then .ok .idle
  else if c = csLoad then .ok .load
  else if c = csChain then .ok .chain
  else if c = csSnap then .ok .snap
  else if c = csKinit then .ok .kinit
  else if c = csWhiten then .ok .whiten
  else if c = csSubshift then .ok .subshift
  else if c = csMixcol then .ok .mixcol
  else if c = csKexp then .ok .kexp
  else if c = csArk then .ok .ark
  else if c = csFinish then .ok .finish
  else .error (.reservedUopCode c)

/-- The decoder: total on both formats, refusing by name. -/
def decode : Encoded → Except DecodeRejection Instr
  | .bus w => .ok (decodeBus w)
  | .uop c => decodeUop c

/-! ## Encoding -/

/-- The byte offset of a register (10_state.md R21). -/
def regOffset : Reg → Offset
  | .ctrl => 0x00#6
  | .status => 0x04#6
  | .roundCount => 0x08#6
  | .iterCount => 0x0C#6
  | .key n => 0x10#6 + BitVec.ofNat 6 (4 * n.val)
  | .block n => 0x20#6 + BitVec.ofNat 6 (4 * n.val)
  | .result n => 0x30#6 + BitVec.ofNat 6 (4 * n.val)

/-- The 39-bit word `{WE, OFF, DATA}` (R88). -/
def busWordOf (we : Bool) (off : Offset) (data : Word) : BitVec 39 := BitVec.ofBool we ++ off ++ data

/-- The encoding of a read; its ignored `DATA` bits are 0 (R88). -/
def encodeRead (r : Reg) : Encoded := .bus (busWordOf false (regOffset r) 0x00000000#32)

/-- The encoding of a write (R88). -/
def encodeWrite (r : Reg) (d : Word) : Encoded := .bus (busWordOf true (regOffset r) d)

/-- The encoder (R83, R85, R88). -/
def encode : Instr → Encoded
  | .rdCtrl => encodeRead .ctrl
  | .wrCtrl d => encodeWrite .ctrl d
  | .rdStatus => encodeRead .status
  | .wrStatus d => encodeWrite .status d
  | .rdRoundCount => encodeRead .roundCount
  | .wrRoundCount d => encodeWrite .roundCount d
  | .rdIterCount => encodeRead .iterCount
  | .wrIterCount d => encodeWrite .iterCount d
  | .rdKey n => encodeRead (.key n)
  | .wrKey n d => encodeWrite (.key n) d
  | .rdBlock n => encodeRead (.block n)
  | .wrBlock n d => encodeWrite (.block n) d
  | .rdResult n => encodeRead (.result n)
  | .wrResult n d => encodeWrite (.result n) d
  | .idle => .uop csIdle
  | .load => .uop csLoad
  | .chain => .uop csChain
  | .snap => .uop csSnap
  | .kinit => .uop csKinit
  | .whiten => .uop csWhiten
  | .subshift => .uop csSubshift
  | .mixcol => .uop csMixcol
  | .kexp => .uop csKexp
  | .ark => .uop csArk
  | .finish => .uop csFinish

/-! ## The opcode table (spec/opcode_table.json) -/

/-- The row of spec/opcode_table.json that a constructor stands for. -/
def rowOf : Instr → OpcodeRow
  | .rdCtrl => ⟨"RD_CTRL", .bus, 0x0, 0x7c00000000⟩
  | .wrCtrl _ => ⟨"WR_CTRL", .bus, 0x4000000000, 0x7c00000000⟩
  | .rdStatus => ⟨"RD_STATUS", .bus, 0x400000000, 0x7c00000000⟩
  | .wrStatus _ => ⟨"WR_STATUS", .bus, 0x4400000000, 0x7c00000000⟩
  | .rdRoundCount => ⟨"RD_ROUND_COUNT", .bus, 0x800000000, 0x7c00000000⟩
  | .wrRoundCount _ => ⟨"WR_ROUND_COUNT", .bus, 0x4800000000, 0x7c00000000⟩
  | .rdIterCount => ⟨"RD_ITER_COUNT", .bus, 0xc00000000, 0x7c00000000⟩
  | .wrIterCount _ => ⟨"WR_ITER_COUNT", .bus, 0x4c00000000, 0x7c00000000⟩
  | .rdKey _ => ⟨"RD_KEYn", .bus, 0x1000000000, 0x7000000000⟩
  | .wrKey _ _ => ⟨"WR_KEYn", .bus, 0x5000000000, 0x7000000000⟩
  | .rdBlock _ => ⟨"RD_BLOCKn", .bus, 0x2000000000, 0x7000000000⟩
  | .wrBlock _ _ => ⟨"WR_BLOCKn", .bus, 0x6000000000, 0x7000000000⟩
  | .rdResult _ => ⟨"RD_RESULTn", .bus, 0x3000000000, 0x7000000000⟩
  | .wrResult _ _ => ⟨"WR_RESULTn", .bus, 0x7000000000, 0x7000000000⟩
  | .idle => ⟨"IDLE", .uop, 0x0, 0xf⟩
  | .load => ⟨"LOAD", .uop, 0x1, 0xf⟩
  | .chain => ⟨"CHAIN", .uop, 0x2, 0xf⟩
  | .snap => ⟨"SNAP", .uop, 0x3, 0xf⟩
  | .kinit => ⟨"KINIT", .uop, 0x4, 0xf⟩
  | .whiten => ⟨"WHITEN", .uop, 0x5, 0xf⟩
  | .subshift => ⟨"SUBSHIFT", .uop, 0x6, 0xf⟩
  | .mixcol => ⟨"MIXCOL", .uop, 0x7, 0xf⟩
  | .kexp => ⟨"KEXP", .uop, 0x8, 0xf⟩
  | .ark => ⟨"ARK", .uop, 0x9, 0xf⟩
  | .finish => ⟨"FINISH", .uop, 0xa, 0xf⟩

/-- The rows of spec/opcode_table.json, in its order. -/
def opcodeTable : List OpcodeRow :=
  [.rdCtrl, .wrCtrl 0, .rdStatus, .wrStatus 0, .rdRoundCount, .wrRoundCount 0, .rdIterCount, .wrIterCount 0].map rowOf
    ++ [.rdKey 0, .wrKey 0 0, .rdBlock 0, .wrBlock 0 0, .rdResult 0, .wrResult 0 0].map rowOf
    ++ [.idle, .load, .chain, .snap, .kinit, .whiten, .subshift, .mixcol, .kexp, .ark, .finish].map rowOf

/-- Whether an encoded instruction is in a row: the row's format, and its pattern under its mask. -/
def OpcodeRow.matches (row : OpcodeRow) : Encoded → Bool
  | .bus w => row.format == .bus && (w &&& BitVec.ofNat 39 row.mask) == BitVec.ofNat 39 row.pattern
  | .uop c => row.format == .uop && (c &&& BitVec.ofNat 4 row.mask) == BitVec.ofNat 4 row.pattern

/-! ## A word of the table, by its number of bits -/

/-- The encoded instruction of a table word. DESIGN CHOICE (log 11): the table's number of bits tells the format, 39
bits in whole bytes for `BUS` and 4 bits in whole bytes for `UOP`; a number that does not fit the format is none. -/
def encodedOfTableWord (nbits w : Nat) : Option Encoded :=
  if nbits < 39 then
    if w < 2 ^ 4 then some (.uop (BitVec.ofNat 4 w)) else none
  else
    if w < 2 ^ 39 then some (.bus (BitVec.ofNat 39 w)) else none

/-- The instruction the decoder reads from a table word. -/
def decodeTableWord (nbits w : Nat) : Option Instr :=
  match encodedOfTableWord nbits w with
  | none => none
  | some e =>
    match decode e with
    | .ok i => some i
    | .error _ => none

end Sys2Proof
end

