-- ==== Sys2Proof/Machine/State.lean ====
section
/-! DEFINITION. The state of the machine (10_state.md), what the outside world still does to it, the reasons a step
can stop, and the state after reset. -/

namespace Sys2Proof.Machine

/-- One clock edge as the engine's input pins show it (44_host_interface.md R190). With `rstN` = 1 and one of `we`,
`re` it is a bus transaction; with both it is the write (30_encoding.md R84); with neither it is none; with `rstN` = 0
it is a reset (70_reset_and_hazards.md R240). -/
structure BusCycle where
  rstN : Bool
  we : Bool
  re : Bool
  addr : Offset
  wdata : Word
  deriving DecidableEq, Repr

/-- Who moves (00_scope.md R8; 20_memory.md R70). -/
inductive Turn where
  | host (c : BusCycle)
  | controller
  deriving DecidableEq, Repr

/-- Why a step stops with a fault. -/
inductive Fault where
  /-- Raised by a step from a state whose `cs` holds a reserved code 0xB to 0xF (R86, S2), on every turn but a reset.
  Safe: no hardware state has such a code. -/
  | reservedState (c : StateCode)
  deriving DecidableEq, Repr

/-- Why a step is refused. -/
inductive Refusal where
  /-- Raised by an arm of `exec` whose instruction has no meaning yet. Safe. No arm raises it. -/
  | notModelled (mnemonic : String)
  deriving DecidableEq, Repr

end Sys2Proof.Machine

namespace Sys2Proof.Machine

/-- The machine's state: the record of 10_state.md section 8, then the model's own fields. `CTRL` holds no value
(R22), `STATUS` is its four flags (R23), and the tables `SBOX` and `RCON` are constants (R38, R39). -/
structure State where
  /-- `ROUND_COUNT` (R24). -/
  roundCount : Word
  /-- `ITER_COUNT` (R25). -/
  iterCount : Word
  /-- `KEY0`..`KEY3` (R26). -/
  key : Four Word
  /-- `BLOCK0`..`BLOCK3` (R27). -/
  block : Four Word
  /-- `RESULT0`..`RESULT3` (R28). -/
  result : Four Word
  /-- `STATUS.BUSY` (R23). -/
  busy : Bool
  /-- `STATUS.DONE` (R23). -/
  done : Bool
  /-- `STATUS.ERR_ROUNDS` (R23). -/
  errRounds : Bool
  /-- `STATUS.ERR_ITERS` (R23). -/
  errIters : Bool
  /-- `W`, the working block (R30). -/
  w : Block
  /-- `K`, the round-key block (R31). -/
  k : Block
  /-- `P`, the chaining register (R32). -/
  p : Block
  /-- `CURSOR`, the round-constant cursor (R33). -/
  cursor : BitVec 4
  /-- `ITER`, the iteration counter (R34). -/
  iter : Word
  /-- `ROUND`, the round counter (R35). -/
  round : Word
  /-- `cs`, the controller state (R36). -/
  cs : StateCode
  /-- The model's own: what the latest bus cycle returned on `bus_rdata` (R190, R84); log 3. -/
  busRdata : Option Word
  /-- The model's own: the turns still to come, oldest first, an interleaving of R70; log 1. -/
  turns : List Turn
  /-- The model's own: the number of free values taken so far; log 4. -/
  freeIx : Nat
  deriving DecidableEq, Repr

/-- The machine right after reset (R41, R240). The last three fields are DESIGN CHOICEs (log 2, 3, 4). -/
def State.reset : State where
  roundCount := 0x00000000#32
  iterCount := 0x00000000#32
  key := Four.fill 0x00000000#32
  block := Four.fill 0x00000000#32
  result := Four.fill 0x00000000#32
  busy := false
  done := false
  errRounds := false
  errIters := false
  w := Block.zero
  k := Block.zero
  p := Block.zero
  cursor := 0x0#4
  iter := 0x00000000#32
  round := 0x00000000#32
  cs := csIdle
  busRdata := none
  turns := []
  freeIx := 0

end Sys2Proof.Machine
end

