-- ==== Sys2Proof/Machine/Flags.lean ====
section
/-! DEFINITION. The flags: the `STATUS` word and the level outputs (10_state.md R23, R40), and the two conditions of the
START check (60_exceptions.md R220). No micro-operation has an arithmetic flag (R40). -/

namespace Sys2Proof.Machine

/-- `STATUS` as read: `zext_32({ERR_ITERS, ERR_ROUNDS, DONE, BUSY})` (44_host_interface.md R194). -/
def statusWord (s : State) : Word :=
  (BitVec.ofBool s.errIters ++ BitVec.ofBool s.errRounds ++ BitVec.ofBool s.done ++ BitVec.ofBool s.busy).setWidth 32

/-- `ERR`, which is `ERR_ROUNDS | ERR_ITERS` (R23). -/
def err (s : State) : Bool := s.errRounds || s.errIters

/-- The level output `busy_o` (R190). -/
def busyO (s : State) : Bool := s.busy

/-- The level output `done_o` (R190). -/
def doneO (s : State) : Bool := s.done

/-- The level output `err_o` (R190). -/
def errO (s : State) : Bool := err s

/-- `sint32(v)`: a register value read as two's complement (00_scope.md R12, R14). -/
def sint32 (v : Word) : Int := v.toInt

/-- The round count is not positive (R220). -/
def roundsInvalid (s : State) : Bool := sint32 s.roundCount < 1

/-- The iteration count is not positive (R220). -/
def itersInvalid (s : State) : Bool := sint32 s.iterCount < 1

end Sys2Proof.Machine
end

