-- ==== Sys2Proof/Machine/KeySchedule.lean ====
section
/-! DEFINITION. The key scheduler (42_key_schedule.md): one step of the round-key recurrence. -/

namespace Sys2Proof.Machine

/-- RotWord of the last column: the byte of row 0 moves to row 3 (R141). -/
def rotWord (K : Block) : Column := Four.ofFn fun r => K.cell (r + 1) 3

/-- SubWord (R142). -/
def subWord (t : Column) : Column := t.map sbox

/-- The round-constant XOR, into row 0 only (R143). -/
def rconXor (u : Column) (cursor : BitVec 4) : Column := { u with e0 := u.e0 ^^^ rcon cursor }

/-- The cursor's advance, modulo `RCON_LEN` (R143). -/
def advanceCursor (cursor : BitVec 4) : BitVec 4 := BitVec.ofNat 4 ((cursor.toNat + 1) % Config.rconLen)

/-- The XOR of two columns. -/
def xorColumn (a b : Column) : Column := Four.zipWith (· ^^^ ·) a b

/-- The column recurrence: each new column depends on the new column before it (R144). -/
def nextKeyColumns (K : Block) (v : Column) : Block :=
  let c0 := xorColumn (K.get 0) v
  let c1 := xorColumn (K.get 1) c0
  let c2 := xorColumn (K.get 2) c1
  let c3 := xorColumn (K.get 3) c2
  ⟨c0, c1, c2, c3⟩

/-- DeriveNext on the key block: the entry at the cursor is read before the cursor advances (R145, R143). -/
def deriveKey (K : Block) (cursor : BitVec 4) : Block :=
  nextKeyColumns K (rconXor (subWord (rotWord K)) cursor)

/-- DeriveNext, key block and cursor together (R145). -/
def deriveNext (K : Block) (cursor : BitVec 4) : Block × BitVec 4 := (deriveKey K cursor, advanceCursor cursor)

end Sys2Proof.Machine
end

