-- ==== Sys2Proof/Machine/Operands.lean ====
section
/-! DEFINITION. How a block maps onto registers (20_memory.md R62, R63), byte numbers (00_scope.md R11), the blocks the
host registers form (10_state.md R26, R27), and where the window sits (20_memory.md R68). -/

namespace Sys2Proof.Machine

/-- Byte number `k` of a block, `B[k mod 4][k div 4]` (R11). -/
def blockByte (B : Block) (k : Fin 16) : Byte :=
  B.cell ⟨k.val % 4, Nat.mod_lt _ (by decide)⟩ ⟨k.val / 4, Nat.div_lt_of_lt_mul k.isLt⟩

/-- `word(c)`: a column packed into a register, row 0 in bits 31:24 (R62). -/
def packColumn (c : Column) : Word := c.e0 ++ c.e1 ++ c.e2 ++ c.e3

/-- The column in a register: row `r` is bits 31-8r : 24-8r (R62). -/
def unpackColumn (v : Word) : Column := Four.ofFn fun r => v.extractLsb' (24 - 8 * r.val) 8

/-- `pack(B)` (R62). -/
def pack (B : Block) : Four Word := B.map packColumn

/-- `unpack(w0, w1, w2, w3)` (R62). -/
def unpack (v : Four Word) : Block := v.map unpackColumn

/-- `KEYB`, the key block (R26). -/
def keyB (s : State) : Block := unpack s.key

/-- `BLOCKB`, the initial block (R27). -/
def blockB (s : State) : Block := unpack s.block

/-- The address of a window offset in a system's address space (R68). -/
def systemAddress (off : Offset) : Nat := Config.engineBase + off.toNat

end Sys2Proof.Machine
end

