-- ==== Sys2Proof/Machine/Ops.lean ====
section
/-! DEFINITION. The operations the meanings share: reading and writing the register window, the START command with the
configuration error, reset, and the free read data of R84. -/

namespace Sys2Proof.Machine

/-! ## The register window (10_state.md R21, 20_memory.md) -/

/-- The value a register reads as: `CTRL` reads as 0 (R22), `STATUS` as its flags (R194). -/
def readReg (r : Reg) (s : State) : Word :=
  match r with
  | .ctrl => 0x00000000#32
  | .status => statusWord s
  | .roundCount => s.roundCount
  | .iterCount => s.iterCount
  | .key n => s.key.get n
  | .block n => s.block.get n
  | .result n => s.result.get n

/-- `MemRead(off, 4)`: the 32-bit register at a byte offset of the window (00_scope.md R13; 20_memory.md R60, R65). -/
def memRead (off : Offset) (s : State) : Word := readReg (regOfOffset off) s

/-- The bus returns `v` to the host (R82). -/
def answerRead (v : Word) (s : State) : State := { s with busRdata := some v }

/-- A write returns no data (R84). -/
def answerWrite (s : State) : State := { s with busRdata := none }

/-- A read transaction: it writes nothing and returns the register's value (R84, R82). -/
def busRead (r : Reg) (s : State) : State := answerRead (readReg r s) s

/-- Store into a read/write register; the others hold nothing the host can write (R21). -/
def storeReg (r : Reg) (d : Word) (s : State) : State :=
  match r with
  | .ctrl => s
  | .status => s
  | .roundCount => { s with roundCount := d }
  | .iterCount => { s with iterCount := d }
  | .key n => { s with key := s.key.set n d }
  | .block n => { s with block := s.block.set n d }
  | .result _ => s

/-- A write of a configuration register: it has no effect while `BUSY` = 1 (44_host_interface.md R193). -/
def writeConfig (r : Reg) (d : Word) (s : State) : State :=
  if s.busy then answerWrite s else storeReg r d (answerWrite s)

/-! ## START and the configuration error -/

/-- `raise ConfigError({errR, errN})`: the error is recorded in `STATUS` and nowhere else; no state is saved, nothing
jumps, and `cs` stays IDLE (60_exceptions.md R220, R222, R226). There is no return: the next START acted on clears the
bits (R226). -/
def raiseConfigError (errR errN : Bool) (s : State) : State := { s with errRounds := errR, errIters := errN }

/-- What every START acted on does, accepted or rejected (R191). -/
def clearForStart (s : State) : State := { s with done := false, result := Four.fill 0x00000000#32 }

/-- An accepted START: no error bit, a run begins at LOAD (R191). -/
def acceptStart (s : State) : State :=
  { s with errRounds := false, errIters := false, busy := true, cs := csLoad }

/-- A START acted on: both counts are checked together (R191, R220, R225). -/
def actOnStart (s : State) : State :=
  if roundsInvalid s || itersInvalid s then raiseConfigError (roundsInvalid s) (itersInvalid s) (clearForStart s)
  else acceptStart (clearForStart s)

/-- A write of `CTRL`: START when bit 0 is 1 and no run is in progress, else no effect (R191). -/
def writeCtrl (d : Word) (s : State) : State :=
  if d.getLsbD 0 && !s.busy then actOnStart (answerWrite s) else answerWrite s

/-! ## Reset, and the read data no rule gives -/

/-- Reset: every state element takes its value of R41 (70_reset_and_hazards.md R240). What the outside world does next
and the numbering of free values are not the engine's and stay (log 14). -/
def resetEngine (s : State) : State := { State.reset with turns := s.turns, freeIx := s.freeIx }

/-- The bus returns a free value (R84, S1; log 4). -/
def answerFree (s : State) : State :=
  { s with busRdata := some (Config.freeRdata s.freeIx), freeIx := s.freeIx + 1 }

/-- Apply `f` to the next state of an outcome, if there is one. -/
def onNext (o : Host.Outcome State Fault Refusal) (f : State → State) : Host.Outcome State Fault Refusal :=
  match o with
  | .next s => .next (f s)
  | .fault r => .fault r
  | .refused r => .refused r

end Sys2Proof.Machine
end

