-- ==== Sys2Proof/Machine/Controller.lean ====
section
/-! DEFINITION. The meanings of the controller's micro-operations (43_round_controller.md R160 to R172), in the reference
sequence (log 16). A meaning does not look at `cs`: the step runs the one `cs` names. Preconditions that R162 and R168
note in a comment hold in every reachable state and are not checked (log 10). -/

namespace Sys2Proof.Machine

/-- IDLE: the controller has no step, so nothing changes (R160; log 18). -/
def execIdle (s : State) : Host.Outcome State Fault Refusal := .next s

/-- LOAD (R161). -/
def execLoad (s : State) : Host.Outcome State Fault Refusal :=
  .next { s with w := blockB s, iter := 1#32, cs := csSnap }

/-- CHAIN (R162). -/
def execChain (s : State) : Host.Outcome State Fault Refusal :=
  .next { s with w := addRoundKey s.w s.p, cs := csSnap }

/-- SNAP (R163). -/
def execSnap (s : State) : Host.Outcome State Fault Refusal :=
  .next { s with p := s.w, cs := csKinit }

/-- KINIT, with KeyInit (R164; 42_key_schedule.md R140). -/
def execKinit (s : State) : Host.Outcome State Fault Refusal :=
  .next { s with k := keyB s, cursor := 0x0#4, round := 0#32, cs := csWhiten }

/-- WHITEN (R166). -/
def execWhiten (s : State) : Host.Outcome State Fault Refusal :=
  .next { s with w := addRoundKey s.w s.k, round := 1#32, cs := csSubshift }

/-- SUBSHIFT: `ROUND < R` unsigned selects MIXCOL (R167). -/
def execSubshift (s : State) : Host.Outcome State Fault Refusal :=
  .next { s with w := subShift s.w, cs := if s.round < s.roundCount then csMixcol else csKexp }

/-- MIXCOL (R168). -/
def execMixcol (s : State) : Host.Outcome State Fault Refusal :=
  .next { s with w := mixColumns s.w, cs := csKexp }

/-- KEXP, with DeriveNext (R169; 42_key_schedule.md R145). -/
def execKexp (s : State) : Host.Outcome State Fault Refusal :=
  .next { s with k := deriveKey s.k s.cursor, cursor := advanceCursor s.cursor, cs := csArk }

/-- ARK: mix the round key, then the next round, the next iteration or FINISH (R170). -/
def execArk (s : State) : Host.Outcome State Fault Refusal :=
  let mixed := { s with w := addRoundKey s.w s.k }
  if s.round < s.roundCount then .next { mixed with round := s.round + 1#32, cs := csSubshift }
  else if s.iter < s.iterCount then .next { mixed with iter := s.iter + 1#32, cs := csChain }
  else .next { mixed with cs := csFinish }

/-- FINISH (R172). -/
def execFinish (s : State) : Host.Outcome State Fault Refusal :=
  .next { s with result := pack s.w, done := true, busy := false, cs := csIdle }

end Sys2Proof.Machine
end

