-- ==== Sys2Proof/Machine/HostBus.lean ====
section
/-! DEFINITION. The meanings of the 14 bus transactions (44_host_interface.md R191 to R205). Every one is defined in
every state and none stops (60_exceptions.md R224). -/

namespace Sys2Proof.Machine

/-- `RD CTRL` (R192). -/
def execRdCtrl (s : State) : Host.Outcome State Fault Refusal := .next (busRead .ctrl s)

/-- `WR CTRL`, START (R191). -/
def execWrCtrl (d : Word) (s : State) : Host.Outcome State Fault Refusal := .next (writeCtrl d s)

/-- `RD STATUS` (R194). -/
def execRdStatus (s : State) : Host.Outcome State Fault Refusal := .next (busRead .status s)

/-- `WR STATUS`: no effect (R195). -/
def execWrStatus (_d : Word) (s : State) : Host.Outcome State Fault Refusal := .next (answerWrite s)

/-- `RD ROUND_COUNT` (R196). -/
def execRdRoundCount (s : State) : Host.Outcome State Fault Refusal := .next (busRead .roundCount s)

/-- `WR ROUND_COUNT` (R197). -/
def execWrRoundCount (d : Word) (s : State) : Host.Outcome State Fault Refusal := .next (writeConfig .roundCount d s)

/-- `RD ITER_COUNT` (R198). -/
def execRdIterCount (s : State) : Host.Outcome State Fault Refusal := .next (busRead .iterCount s)

/-- `WR ITER_COUNT` (R199). -/
def execWrIterCount (d : Word) (s : State) : Host.Outcome State Fault Refusal := .next (writeConfig .iterCount d s)

/-- `RD KEYn` (R200). -/
def execRdKey (n : Fin 4) (s : State) : Host.Outcome State Fault Refusal := .next (busRead (.key n) s)

/-- `WR KEYn` (R201). -/
def execWrKey (n : Fin 4) (d : Word) (s : State) : Host.Outcome State Fault Refusal := .next (writeConfig (.key n) d s)

/-- `RD BLOCKn` (R202). -/
def execRdBlock (n : Fin 4) (s : State) : Host.Outcome State Fault Refusal := .next (busRead (.block n) s)

/-- `WR BLOCKn` (R203). -/
def execWrBlock (n : Fin 4) (d : Word) (s : State) : Host.Outcome State Fault Refusal :=
  .next (writeConfig (.block n) d s)

/-- `RD RESULTn` (R204). -/
def execRdResult (n : Fin 4) (s : State) : Host.Outcome State Fault Refusal := .next (busRead (.result n) s)

/-- `WR RESULTn`: no effect (R205). -/
def execWrResult (_n : Fin 4) (_d : Word) (s : State) : Host.Outcome State Fault Refusal := .next (answerWrite s)

end Sys2Proof.Machine
end

