-- ==== Sys2Proof/Machine/Dispatch.lean ====
section
/-! DEFINITION. One arm per instruction. -/

namespace Sys2Proof.Machine

def exec (i : Instr) (s : State) : Host.Outcome State Fault Refusal :=
  match i with
  -- bus transactions (30_encoding.md R83)
  | .rdCtrl => Sys2Proof.Machine.execRdCtrl s
  | .wrCtrl d => Sys2Proof.Machine.execWrCtrl d s
  | .rdStatus => Sys2Proof.Machine.execRdStatus s
  | .wrStatus d => Sys2Proof.Machine.execWrStatus d s
  | .rdRoundCount => Sys2Proof.Machine.execRdRoundCount s
  | .wrRoundCount d => Sys2Proof.Machine.execWrRoundCount d s
  | .rdIterCount => Sys2Proof.Machine.execRdIterCount s
  | .wrIterCount d => Sys2Proof.Machine.execWrIterCount d s
  | .rdKey n => Sys2Proof.Machine.execRdKey n s
  | .wrKey n d => Sys2Proof.Machine.execWrKey n d s
  | .rdBlock n => Sys2Proof.Machine.execRdBlock n s
  | .wrBlock n d => Sys2Proof.Machine.execWrBlock n d s
  | .rdResult n => Sys2Proof.Machine.execRdResult n s
  | .wrResult n d => Sys2Proof.Machine.execWrResult n d s
  -- controller micro-operations (30_encoding.md R85)
  | .idle => Sys2Proof.Machine.execIdle s
  | .load => Sys2Proof.Machine.execLoad s
  | .chain => Sys2Proof.Machine.execChain s
  | .snap => Sys2Proof.Machine.execSnap s
  | .kinit => Sys2Proof.Machine.execKinit s
  | .whiten => Sys2Proof.Machine.execWhiten s
  | .subshift => Sys2Proof.Machine.execSubshift s
  | .mixcol => Sys2Proof.Machine.execMixcol s
  | .kexp => Sys2Proof.Machine.execKexp s
  | .ark => Sys2Proof.Machine.execArk s
  | .finish => Sys2Proof.Machine.execFinish s

end Sys2Proof.Machine
end

