-- ==== Sys2Proof/Machine/Agents.lean ====
section
/-! DEFINITION. What each agent's turn does (00_scope.md R8; 20_memory.md R70), and how a turn is laid out so that it
runs a given encoded instruction. -/

namespace Sys2Proof.Machine

/-- The `BUS` word on the pins of a cycle, `{WE, OFF, DATA}` (30_encoding.md R81). -/
def busWord (c : BusCycle) : BitVec 39 := busWordOf c.we c.addr c.wdata

/-- What the strobes of a cycle ask for (30_encoding.md R84): with both, the write it encodes, returning any value; with
neither, no transaction. -/
def performCycle (c : BusCycle) (s : State) : Host.Outcome State Fault Refusal :=
  match c.we, c.re with
  | false, false => .next s
  | false, true => exec (decodeBus (busWord c)) s
  | true, false => exec (decodeBus (busWord c)) s
  | true, true => onNext (exec (decodeBus (busWord c)) s) answerFree

/-- A host turn: reset overrides everything (60_exceptions.md R225; 70_reset_and_hazards.md R240); a state with a
reserved `cs` is a fault (30_encoding.md R86; log 6). -/
def hostTurn (c : BusCycle) (s : State) : Host.Outcome State Fault Refusal :=
  if c.rstN then
    if StateCode.legal s.cs then performCycle c s else .fault (.reservedState s.cs)
  else .next (resetEngine s)

/-- A controller turn: the micro-operation `cs` names (10_state.md R36); a reserved code is a fault (R86). -/
def controllerTurn (s : State) : Host.Outcome State Fault Refusal :=
  match decode (.uop s.cs) with
  | .ok i => exec i s
  | .error (.reservedUopCode c) => .fault (.reservedState c)

/-- The next turn, and the state in which it is taken. With no turn listed the controller moves (weak fairness,
70_reset_and_hazards.md R250; log 1). -/
def takeTurn (s : State) : Host.Outcome State Fault Refusal :=
  match s.turns with
  | [] => controllerTurn s
  | .controller :: rest => controllerTurn { s with turns := rest }
  | .host c :: rest => hostTurn c { s with turns := rest }

/-- The bus cycle of a `BUS` word, `bus_re` being the complement of `WE` (30_encoding.md R81). -/
def cycleOfWord (w : BitVec 39) : BusCycle where
  rstN := true
  we := busWe w
  re := !busWe w
  addr := busOff w
  wdata := busData w

/-- Lay an encoded instruction where the next step takes it: a `BUS` word as the host's next turn, a `UOP` code in `cs`
with the controller's turn next (log 2). -/
def placeNext (e : Encoded) (s : State) : State :=
  match e with
  | .bus w => { s with turns := .host (cycleOfWord w) :: s.turns }
  | .uop c => { s with cs := c, turns := .controller :: s.turns }

end Sys2Proof.Machine
end

