-- ==== Sys2Proof/Machine/Step.lean ====
section
/-! DEFINITION. One step of the machine: one agent's turn. -/

namespace Sys2Proof.Machine

/-- One step: the next turn of the interleaving (20_memory.md R70). -/
def step (s : State) : Host.Outcome State Fault Refusal := takeTurn s

/-- `s` with a table word laid where the next step takes it; a word of neither format changes nothing. -/
def State.withFetchWord (s : State) (nbits w : Nat) : State :=
  match encodedOfTableWord nbits w with
  | some e => placeNext e s
  | none => s

end Sys2Proof.Machine
end

