-- ==== Sys2Proof/Machine/HostScript.lean ====
section
/-! DEFINITION. Host scripts (30_encoding.md R88, R89): what a line stands for, the loop of `POLL` and `WAIT` among it, and
how a line runs under an interleaving with the controller (20_memory.md R70). -/

namespace Sys2Proof.Machine

/-- The register a script names; a bracketed offset is decoded as on the bus (R88, R83). -/
def scriptReg : ScriptReg → Reg
  | .name r => r
  | .offset off => regOfOffset (BitVec.ofNat 6 off)

/-- Register number `n` of a bank that `WRBLK` writes (R89). -/
def bankReg (bank : ScriptBank) (n : Fin 4) : Reg :=
  match bank with
  | .key => .key n
  | .block => .block n

/-- Hex digits `8n` to `8n+7` of a 32-digit string, digit 0 the most significant (R89). -/
def digitsWord (digits : Nat) (n : Fin 4) : Word := BitVec.ofNat 32 (digits >>> (96 - 32 * n.val))

/-- What a line is on the host: transactions in program order, or the loop `L: RD <reg>; repeat from L while
(value read & mask) != value` (R89). -/
inductive LineCode where
  | issue (instrs : List Instr)
  | loop (read : Instr) (mask value : Word)
  deriving DecidableEq, Repr

/-- `POLL <reg>, <mask>, <value>` (R89). -/
def pollCode (reg : ScriptReg) (mask value : Nat) : LineCode :=
  .loop (readInstr (scriptReg reg)) (BitVec.ofNat 32 mask) (BitVec.ofNat 32 value)

/-- The expansion of a well-formed line (R88, R89). -/
def expand : ScriptLine → LineCode
  | .wr reg imm => .issue [writeInstr (BitVec.ofNat 32 imm) (scriptReg reg)]
  | .rd reg => .issue [readInstr (scriptReg reg)]
  | .rdExpect reg _ => .issue [readInstr (scriptReg reg)]
  | .start => .issue [.wrCtrl 0x00000001#32]
  | .wrblk bank digits => .issue ([0, 1, 2, 3].map fun n => writeInstr (digitsWord digits n) (bankReg bank n))
  | .rdblkResult => .issue ([0, 1, 2, 3].map fun n => .rdResult n)
  | .poll reg mask value => pollCode reg mask value
  | .wait => pollCode (.name .status) 0x00000001 0x00000000

/-- When a `POLL` with this mask and value ends: `(value read & mask) = value` (R89). -/
def pollEnds (mask value read : Word) : Bool := (read &&& mask) == value

/-- When a `WAIT` ends: `BUSY` = 0 in the word read (R89). -/
def waitEnds (read : Word) : Bool := pollEnds 0x00000001#32 0x00000000#32 read

/-- The host turn that issues a transaction; a micro-operation is none. -/
def turnOf (i : Instr) : Option Turn :=
  match encode i with
  | .bus w => some (.host (cycleOfWord w))
  | .uop _ => none

/-- Instructions performed one after another, none between them (20_memory.md R70). -/
def execSeq : List Instr → State → Host.Outcome State Fault Refusal
  | [], s => .next s
  | i :: rest, s =>
    match exec i s with
    | .next t => execSeq rest t
    | .fault r => .fault r
    | .refused r => .refused r

/-! ## A line under an interleaving -/

/-- Go on from a next state; a fault or a refusal stays. -/
def andThen {α β : Type} (o : Host.Outcome α Fault Refusal) (k : α → Host.Outcome β Fault Refusal) :
    Host.Outcome β Fault Refusal :=
  match o with
  | .next x => k x
  | .fault r => .fault r
  | .refused r => .refused r

/-- `n` controller turns, one after another (20_memory.md R70). -/
def advance : Nat → State → Host.Outcome State Fault Refusal
  | 0, s => .next s
  | n + 1, s => andThen (controllerTurn s) (advance n)

/-- The host performs one transaction (20_memory.md R70); a micro-operation is none of its own. -/
def transact (i : Instr) (s : State) : Host.Outcome State Fault Refusal :=
  match encode i with
  | .bus w => hostTurn (cycleOfWord w) s
  | .uop _ => .next s

/-- How far a line has come: the state, the transactions performed, and whether the line has ended. -/
structure LineRun where
  state : State
  issued : List Instr
  ended : Bool
  deriving DecidableEq, Repr

/-- `gap` controller turns, the transaction `i`, then the rest of the line. -/
def issueThen (gap : Nat) (i : Instr) (s : State) (rest : State → Host.Outcome LineRun Fault Refusal) :
    Host.Outcome LineRun Fault Refusal :=
  andThen (advance gap s) fun t => andThen (transact i t) fun u => andThen (rest u) fun r =>
    .next { r with issued := i :: r.issued }

/-- Transactions in program order, `gaps` giving the controller turns before each (20_memory.md R70). -/
def runIssue : List Instr → List Nat → State → Host.Outcome LineRun Fault Refusal
  | [], _, s => .next ⟨s, [], true⟩
  | _ :: _, [], s => .next ⟨s, [], false⟩
  | i :: is, gap :: gaps, s => issueThen gap i s (runIssue is gaps)

/-- The loop of `POLL`: read, stop when the value read meets the condition, else repeat (R89). `gaps` gives the
controller turns before each read; where it runs out the loop has not ended (log 17). -/
def runLoop (read : Instr) (mask value : Word) : List Nat → State → Host.Outcome LineRun Fault Refusal
  | [], s => .next ⟨s, [], false⟩
  | gap :: gaps, s =>
    issueThen gap read s fun t =>
      if t.busRdata.any (pollEnds mask value) then .next ⟨t, [], true⟩ else runLoop read mask value gaps t

/-- A line's code under an interleaving. -/
def runCode (code : LineCode) (gaps : List Nat) (s : State) : Host.Outcome LineRun Fault Refusal :=
  match code with
  | .issue is => runIssue is gaps s
  | .loop read mask value => runLoop read mask value gaps s

/-- A line under an interleaving; the syntax refuses an ill-formed one (R88). -/
def runLine (line : ScriptLine) (gaps : List Nat) (s : State) : Option (Host.Outcome LineRun Fault Refusal) :=
  if line.wf then some (runCode (expand line) gaps s) else none

end Sys2Proof.Machine
end

