-- ==== Sys2Proof/Machine/Cipher.lean ====
section
/-! DEFINITION. The run as a function (43_round_controller.md R173, R174): what the controller's steps compute. The
machine does not call it; statements compare the machine with it. -/

namespace Sys2Proof.Machine

/-- The body of EncryptBlock's loop in `R` rounds: the block, the round key and the cursor after `j` rounds, starting
from the whitening with round key 0 (R173). -/
def roundsDone (A key : Block) (R : Nat) : Nat → Block × Block × BitVec 4
  | 0 => (addRoundKey A key, key, 0x0#4)
  | j + 1 =>
    let prev := roundsDone A key R j
    let next := deriveNext prev.2.1 prev.2.2
    (roundFn prev.1 next.1 (j + 1 == R), next.1, next.2)

/-- EncryptBlock, the encryption of one block in `R` rounds (R173). -/
def encryptBlock (A key : Block) (R : Nat) : Block := (roundsDone A key R R).1

/-- Round key `j` of an iteration (42_key_schedule.md R146). -/
def roundKey (key : Block) : Nat → Block × BitVec 4
  | 0 => (key, 0x0#4)
  | j + 1 => deriveNext (roundKey key j).1 (roundKey key j).2

/-- The body of Run's loop: `W` and `P` at the end of iteration `i + 1` (R174). Iteration 1 takes the initial block;
a later one takes `W xor P`. -/
def iterationsDone (key blk : Block) (R : Nat) : Nat → Block × Block
  | 0 => (encryptBlock blk key R, blk)
  | i + 1 =>
    let prev := iterationsDone key blk R i
    let input := addRoundKey prev.1 prev.2
    (encryptBlock input key R, input)

/-- Run, the whole computation, for `N` at least 1 (R174). -/
def runBlocks (key blk : Block) (R N : Nat) : Block := (iterationsDone key blk R (N - 1)).1

/-- The number of controller steps of a run (R175). -/
def runSteps (R N : Nat) : Nat := N * (4 * R + 3) + 1

end Sys2Proof.Machine
end

