-- ==== Sys2Proof/Safety.lean ====
section
/-! DEFINITION. What holds in every state the engine can reach: the invariants the rules state about flags and counters
(10_state.md R28, R33 to R37), and the content of the datapath during a run (43_round_controller.md R165, R173, R174;
42_key_schedule.md R146). -/

namespace Sys2Proof

open Sys2Proof.Machine

/-- The states of a round, in which `ROUND` is its number (R35). -/
def StateCode.inRound (c : StateCode) : Bool := c == csSubshift || c == csMixcol || c == csKexp || c == csArk

/-- The flags and the counters (control part of a reachable state). -/
structure Inv (s : State) : Prop where
  /-- `cs` never holds a reserved code (R86). -/
  csLegal : StateCode.legal s.cs = true
  /-- `BUSY` = 1 exactly when `cs` is not IDLE (R37). -/
  busyIffRunning : s.busy = true ↔ s.cs ≠ csIdle
  /-- While `BUSY` = 1 the other flags are 0 (R37). -/
  busyAlone : s.busy = true → s.done = false ∧ s.errRounds = false ∧ s.errIters = false
  /-- With `DONE` = 1 no error bit is set (R194). -/
  doneAlone : s.done = true → s.errRounds = false ∧ s.errIters = false
  /-- During a run both counts are from 1 to 2^31-1 (R24, R25). -/
  countsValid : s.busy = true → 1 ≤ sint32 s.roundCount ∧ 1 ≤ sint32 s.iterCount
  /-- `RESULT` is 0 unless `DONE` = 1 (R28). -/
  resultHidden : s.done = false → s.result = Four.fill 0x00000000#32
  /-- `CURSOR` indexes the table (R33). -/
  cursorInTable : s.cursor.toNat < Config.rconLen
  /-- From SNAP on, `ITER` is the 1-based number of the iteration, at most `N` (R34). -/
  iterInRange : s.busy = true → s.cs ≠ csLoad → 1 ≤ s.iter.toNat ∧ s.iter.toNat ≤ s.iterCount.toNat
  /-- CHAIN is for iterations 2 to `N` (R162). -/
  chainIter : s.cs = csChain → 2 ≤ s.iter.toNat
  /-- `ROUND` is 0 from KINIT until WHITEN (R35). -/
  roundZero : s.cs = csWhiten → s.round = 0#32
  /-- Within a round, `ROUND` is its 1-based number, at most `R` (R35). -/
  roundInRange : StateCode.inRound s.cs = true → 1 ≤ s.round.toNat ∧ s.round.toNat ≤ s.roundCount.toNat
  /-- MIXCOL is for non-final rounds (R168). -/
  mixcolRound : s.cs = csMixcol → s.round.toNat < s.roundCount.toNat
  /-- FINISH follows the last round of the last iteration (R170). -/
  finishCounts : s.cs = csFinish → s.round = s.roundCount ∧ s.iter = s.iterCount

/-- `In_i` of R165 with `i = ITER`: the block that entered the iteration in progress. -/
def iterInput (s : State) : Block :=
  (iterationsDone (keyB s) (blockB s) s.roundCount.toNat (s.iter.toNat - 1)).2

/-- The block, the round key and the cursor after `j` rounds of the iteration in progress (R173). -/
def afterRounds (s : State) (j : Nat) : Block × Block × BitVec 4 :=
  roundsDone (iterInput s) (keyB s) s.roundCount.toNat j

/-- The block that round `ROUND` mixes its key into: SubShift, then MixColumns but for the final round (R131). -/
def mixedInput (s : State) : Block :=
  let a := subShift (afterRounds s (s.round.toNat - 1)).1
  if s.round.toNat = s.roundCount.toNat then a else mixColumns a

/-- The datapath during a run, state by state, in terms of the functions of R173 and R174. -/
structure RunInv (s : State) : Prop where
  /-- Entering CHAIN, `W` and `P` are the ciphertext and the input of the iteration before (R162, R165). -/
  atChain : s.cs = csChain →
    (s.w, s.p) = iterationsDone (keyB s) (blockB s) s.roundCount.toNat (s.iter.toNat - 2)
  /-- Entering SNAP, `W` is the input of the iteration (R165). -/
  atSnap : s.cs = csSnap → s.w = iterInput s
  /-- Entering KINIT and WHITEN, `W` is still that input (R163, R164). -/
  atKinit : s.cs = csKinit ∨ s.cs = csWhiten → s.w = iterInput s
  /-- Entering WHITEN, `K` is the key and the cursor is 0 (R164, R166). -/
  atWhiten : s.cs = csWhiten → s.k = keyB s ∧ s.cursor = 0x0#4
  /-- From SNAP's effect to the end of the iteration `P` holds its input (R165). -/
  snapshot : s.cs = csKinit ∨ s.cs = csWhiten ∨ StateCode.inRound s.cs = true → s.p = iterInput s
  /-- Entering SUBSHIFT of round `ROUND`, `ROUND`-1 rounds are done (R173). -/
  atSubshift : s.cs = csSubshift → (s.w, s.k, s.cursor) = afterRounds s (s.round.toNat - 1)
  /-- Entering MIXCOL, SubShift is done and the round key is still the one before (R167). -/
  atMixcol : s.cs = csMixcol →
    (s.w, s.k, s.cursor) = (subShift (afterRounds s (s.round.toNat - 1)).1, (afterRounds s (s.round.toNat - 1)).2)
  /-- Entering KEXP, only the round key is missing (R169). -/
  atKexp : s.cs = csKexp → (s.w, s.k, s.cursor) = (mixedInput s, (afterRounds s (s.round.toNat - 1)).2)
  /-- Entering ARK, `K` is round key number `ROUND` (R146, R170). -/
  atArk : s.cs = csArk → (s.w, s.k, s.cursor) = (mixedInput s, (afterRounds s s.round.toNat).2)
  /-- Entering FINISH, `W` is the result of the run (R174). -/
  atFinish : s.cs = csFinish → s.w = runBlocks (keyB s) (blockB s) s.roundCount.toNat s.iterCount.toNat

/-- Whether a turn is a reset (R240). -/
def isReset : Turn → Bool
  | .host c => !c.rstN
  | .controller => false

/-- A stretch of an interleaving without a reset. -/
def noReset (ts : List Turn) : Bool := ts.all fun t => !isReset t

/-- The number of controller turns in a stretch of an interleaving. -/
def controllerTurns (ts : List Turn) : Nat := ts.count .controller

/-- The instruction is a bus transaction (R83), not a micro-operation. -/
def isBusInstr (i : Instr) : Bool := (rowOf i).format == .bus

/-- A START that is acted on and accepted: bit 0 set, no run in progress, both counts positive (R191). -/
def startAccepted (d : Word) (s : State) : Prop :=
  d.getLsbD 0 = true ∧ s.busy = false ∧ 1 ≤ sint32 s.roundCount ∧ 1 ≤ sint32 s.iterCount

end Sys2Proof
end

