-- ==== Sys2Proof/Certificates/Slice0/Obligations.lean ====
section
/-! DEFINITION. The statements about the machine, for the provers. Each docstring names the rules it formalises. -/

open Sys2Proof Sys2Proof.Machine

/-! ## Encoding -/

/-- Words of the host scripts P1 to P3 (95_test_vectors.md section 3) and codes of 30_encoding.md R85 decode to what
they stand for. -/
def Obligations.SampleWordsDecode : Prop :=
  decode (.bus 0x480000000A#39) = .ok (.wrRoundCount 0x0000000A#32) ∧
  decode (.bus 0x4C00000001#39) = .ok (.wrIterCount 0x00000001#32) ∧
  decode (.bus 0x5404050607#39) = .ok (.wrKey 1 0x04050607#32) ∧
  decode (.bus 0x6CCCDDEEFF#39) = .ok (.wrBlock 3 0xCCDDEEFF#32) ∧
  decode (.bus 0x4000000001#39) = .ok (.wrCtrl 0x00000001#32) ∧
  decode (.bus 0x0400000000#39) = .ok .rdStatus ∧
  decode (.bus 0x3800000000#39) = .ok (.rdResult 2) ∧
  decode (.bus 0x1000000000#39) = .ok (.rdKey 0) ∧
  decode (.uop 0x2#4) = .ok .chain ∧
  decode (.uop 0x9#4) = .ok .ark

/-- R80 to R85: decoding the encoding of any instruction, with every operand at every value, gives it back. -/
def Obligations.DecodeInvertsEncode : Prop :=
  ∀ i : Instr, decode (encode i) = .ok i

/-- R83: every `BUS` word is in exactly one row of the table, the row of the instruction it decodes to, and only `WE`,
`OFF[5:2]` and a write's `DATA` are examined. -/
def Obligations.BusDecodingIsTotalAndUnambiguous : Prop :=
  (∀ w : BitVec 39, opcodeTable.filter (fun row => row.matches (.bus w)) = [rowOf (decodeBus w)]) ∧
  (∀ w w' : BitVec 39, busWe w = busWe w' → w.extractLsb' 34 4 = w'.extractLsb' 34 4 →
    (busWe w = true → busData w = busData w') → decodeBus w = decodeBus w')

/-- R82 (with R81): `n` is `OFF[3:2]`, and a write's data is `DATA` unchanged. -/
def Obligations.BusOperandsAreTheirFields : Prop :=
  ∀ (w : BitVec 39) (n : Fin 4) (d : Word),
    (decodeBus w = .rdKey n ∨ decodeBus w = .rdBlock n ∨ decodeBus w = .rdResult n ∨ decodeBus w = .wrKey n d ∨
        decodeBus w = .wrBlock n d ∨ decodeBus w = .wrResult n d → n.val = w.toNat / 2 ^ 34 % 4) ∧
    (decodeBus w = .wrCtrl d ∨ decodeBus w = .wrStatus d ∨ decodeBus w = .wrRoundCount d ∨ decodeBus w = .wrIterCount d ∨
        decodeBus w = .wrKey n d ∨ decodeBus w = .wrBlock n d ∨ decodeBus w = .wrResult n d →
      d.toNat = w.toNat % 2 ^ 32)

/-- R85, R86: the eleven `UOP` codes decode to instructions that encode back to them; codes 0xB to 0xF are refused by
name. -/
def Obligations.UopCodesDecodeOrAreReserved : Prop :=
  ∀ c : StateCode,
    (c.toNat ≤ 0xA → ∃ i, decode (.uop c) = .ok i ∧ encode i = .uop c) ∧
    (0xB ≤ c.toNat → decode (.uop c) = .error (.reservedUopCode c))

/-- R65: an offset that is not a multiple of 4 acts on the register at `off & 0x3C`, with no trap; a script never spells
one. That a cycle with both strobes returns the same free value at the two offsets is the model's choice (log 4: the
value depends on the counter alone), and that a cycle with neither strobe changes nothing is its reading (log 5). -/
def Obligations.MisalignedOffsetsFold : Prop :=
  (∀ (off : Offset) (s : State), memRead off s = memRead (off &&& 0x3C#6) s) ∧
  (∀ (c : BusCycle) (s : State),
    ∃ t, performCycle c s = .next t ∧ performCycle { c with addr := c.addr &&& 0x3C#6 } s = .next t) ∧
  (∀ off : Nat, (ScriptReg.offset off).wf = true → off % 4 = 0)

/-- R88, R89: `WRBLK KEY` and `WRBLK BLOCK` of any 32 hex digits put hex digits 2k and 2k+1 into byte number k of the
block (R11), digit 0 first, and change nothing else; every transaction completes. -/
def Obligations.WriteBlockStoresTheHexForm : Prop :=
  ∀ (digits : Nat) (s : State), digits < 2 ^ 128 → s.busy = false →
    (∃ is t, expand (.wrblk .key digits) = .issue is ∧ execSeq is s = .next t ∧
      t = { s with key := t.key, busRdata := none } ∧
      ∀ k : Fin 16, (blockByte (keyB t) k).toNat = digits / 2 ^ (120 - 8 * k.val) % 256) ∧
    (∃ is t, expand (.wrblk .block digits) = .issue is ∧ execSeq is s = .next t ∧
      t = { s with block := t.block, busRdata := none } ∧
      ∀ k : Fin 16, (blockByte (blockB t) k).toNat = digits / 2 ^ (120 - 8 * k.val) % 256)

/-! ## The step -/

/-- A host turn with one strobe runs the instruction the word on the pins decodes to (R8, R70, R81). -/
def Obligations.StepRunsHostTransaction : Prop :=
  ∀ (s : State) (c : BusCycle) (rest : List Turn), s.turns = .host c :: rest → c.rstN = true → c.we ≠ c.re →
    StateCode.legal s.cs = true →
    step s = exec (decodeBus (busWordOf c.we c.addr c.wdata)) { s with turns := rest }

/-- A controller turn, listed or by default, runs the micro-operation whose code `cs` holds (R36). That the controller
moves when no turn is listed is the model's choice (log 1). -/
def Obligations.StepRunsMicroOperation : Prop :=
  ∀ (s : State) (i : Instr), (s.turns = [] ∨ s.turns.head? = some .controller) → decode (.uop s.cs) = .ok i →
    step s = exec i { s with turns := s.turns.tail }

/-- A table word laid out by `withFetchWord` is what the next step runs, and nothing else of the state has changed but
`cs` for a micro-operation (log 2). -/
def Obligations.FetchedWordRuns : Prop :=
  (∀ (s : State) (w : BitVec 39), StateCode.legal s.cs = true →
    step (s.withFetchWord 40 w.toNat) = exec (decodeBus w) s) ∧
  (∀ (s : State) (c : StateCode) (i : Instr), decode (.uop c) = .ok i →
    step (s.withFetchWord 8 c.toNat) = exec i { s with cs := c })

/-- R84: a write transaction returns no data; a read transaction writes nothing; with both strobes the write is performed
and some value is returned, about which nothing is said; with neither there is no transaction. That such a
cycle changes nothing but the list of turns is the model's reading (log 5). -/
def Obligations.StrobesOfACycle : Prop :=
  ∀ (s : State) (c : BusCycle) (rest : List Turn), s.turns = .host c :: rest → c.rstN = true →
    StateCode.legal s.cs = true →
    (c.we = true → c.re = false → ∃ t, step s = .next t ∧ t.busRdata = none) ∧
    (c.we = false → c.re = true → ∃ t, step s = .next t ∧ t = { s with turns := rest, busRdata := t.busRdata }) ∧
    (c.we = true → c.re = true → ∃ u t, exec (decodeBus (busWordOf true c.addr c.wdata)) { s with turns := rest } = .next u ∧
      step s = .next t ∧ t = { u with busRdata := t.busRdata, freeIx := t.freeIx } ∧ t.busRdata.isSome = true) ∧
    (c.we = false → c.re = false → step s = .next { s with turns := rest })

/-- R86: a state whose `cs` holds a reserved code is a fault, whoever moves; that a reset is still performed in it is the
model's reading (log 6). -/
def Obligations.ReservedControllerStateFaults : Prop :=
  ∀ s : State, StateCode.legal s.cs = false →
    (∀ c rest, s.turns = .host c :: rest → c.rstN = true) → step s = .fault (.reservedState s.cs)

/-- R224, R223: every instruction completes in every state, so no step from a state with a legal `cs` stops. That CHAIN and
MIXCOL complete also where the preconditions of R162 and R168 fail, which no run reaches, is the model's choice (log 10); that the
row IDLE and a controller turn in IDLE answer a next state is its reading (log 18), and that the controller moves when no
turn is listed its choice (log 1). -/
def Obligations.EveryInstructionCompletes : Prop :=
  (∀ (i : Instr) (s : State), ∃ t, exec i s = .next t) ∧
  (∀ s : State, StateCode.legal s.cs = true → ∃ t, step s = .next t)

/-! ## Reset -/

/-- R240, R41, R241: a cycle with `rst_n` = 0 leaves every state element at its reset value whatever the state and the
strobes were, so also during a run, and performs no transaction. -/
def Obligations.ResetSetsEveryElement : Prop :=
  ∀ (s : State) (c : BusCycle) (rest : List Turn), s.turns = .host c :: rest → c.rstN = false →
    ∃ t, step s = .next t ∧ t.turns = rest ∧
      (∀ r : Reg, readReg r t = 0x00000000#32) ∧
      (t.busy = false ∧ t.done = false ∧ t.errRounds = false ∧ t.errIters = false) ∧
      (∀ r c : Fin 4, t.w.cell r c = 0x00#8 ∧ t.k.cell r c = 0x00#8 ∧ t.p.cell r c = 0x00#8) ∧
      t.cursor.toNat = 0 ∧ t.iter.toNat = 0 ∧ t.round.toNat = 0 ∧ t.cs = csIdle ∧
      busyO t = false ∧ doneO t = false ∧ errO t = false

/-- The reset state meets both invariants. -/
def Obligations.ResetMeetsInvariants : Prop := Inv State.reset ∧ RunInv State.reset

/-! ## Bus transactions -/

/-- R192: `RD CTRL` returns 0 in every state. -/
def Obligations.ReadCtrlReturnsZero : Prop :=
  ∀ s : State, exec .rdCtrl s = .next { s with busRdata := some 0x00000000#32 }

/-- R194: `RD STATUS` returns the four flags in bits 3:0 and zeros above, with no side effect, and in a state that meets
the invariant only the six listed values. -/
def Obligations.ReadStatusReturnsFlags : Prop :=
  ∀ s : State, ∃ v : Word, exec .rdStatus s = .next { s with busRdata := some v } ∧
    v.getLsbD 0 = s.busy ∧ v.getLsbD 1 = s.done ∧ v.getLsbD 2 = s.errRounds ∧ v.getLsbD 3 = s.errIters ∧
    (∀ i, 4 ≤ i → v.getLsbD i = false) ∧
    (Inv s → v = 0x0#32 ∨ v = 0x1#32 ∨ v = 0x2#32 ∨ v = 0x4#32 ∨ v = 0x8#32 ∨ v = 0xC#32)

/-- R196, R198, R200, R202, R204: the other reads return the register's 32 bits and change nothing else; `RESULTn` reads
0 while `DONE` = 0. -/
def Obligations.ReadsReturnTheRegister : Prop :=
  ∀ (s : State) (n : Fin 4),
    exec .rdRoundCount s = .next { s with busRdata := some s.roundCount } ∧
    exec .rdIterCount s = .next { s with busRdata := some s.iterCount } ∧
    exec (.rdKey n) s = .next { s with busRdata := some (s.key.get n) } ∧
    exec (.rdBlock n) s = .next { s with busRdata := some (s.block.get n) } ∧
    exec (.rdResult n) s = .next { s with busRdata := some (s.result.get n) } ∧
    (Inv s → s.done = false → exec (.rdResult n) s = .next { s with busRdata := some 0x00000000#32 })

/-- R197, R199: with no run in progress a count register takes all 32 bits of `DATA`, whatever their value; during a run
the write is ignored; nothing else changes in either case. -/
def Obligations.CountWritesStoreData : Prop :=
  ∀ (s : State) (d : Word),
    (s.busy = false →
      exec (.wrRoundCount d) s = .next { s with roundCount := d, busRdata := none } ∧
      exec (.wrIterCount d) s = .next { s with iterCount := d, busRdata := none }) ∧
    (s.busy = true →
      exec (.wrRoundCount d) s = .next { s with busRdata := none } ∧
      exec (.wrIterCount d) s = .next { s with busRdata := none })

/-- R201, R203: with no run in progress `WR KEYn` and `WR BLOCKn` set column `n` of the block to the bytes of `DATA`, row 0
in bits 31:24, and leave the other columns and all other state alone. -/
def Obligations.KeyAndBlockWritesSetAColumn : Prop :=
  ∀ (s : State) (n : Fin 4) (d : Word), s.busy = false →
    (∃ t, exec (.wrKey n d) s = .next t ∧ t = { s with key := t.key, busRdata := none } ∧ t.key.get n = d ∧
      (∀ r : Fin 4, ((keyB t).cell r n).toNat = d.toNat / 2 ^ (24 - 8 * r.val) % 256) ∧
      (∀ m : Fin 4, m ≠ n → t.key.get m = s.key.get m)) ∧
    (∃ t, exec (.wrBlock n d) s = .next t ∧ t = { s with block := t.block, busRdata := none } ∧ t.block.get n = d ∧
      (∀ r : Fin 4, ((blockB t).cell r n).toNat = d.toNat / 2 ^ (24 - 8 * r.val) % 256) ∧
      (∀ m : Fin 4, m ≠ n → t.block.get m = s.block.get m))

/-- R195, R205: writes of `STATUS` and `RESULTn` complete and have no effect, in every state. -/
def Obligations.ReadOnlyRegistersIgnoreWrites : Prop :=
  ∀ (s : State) (n : Fin 4) (d : Word),
    exec (.wrStatus d) s = .next { s with busRdata := none } ∧
    exec (.wrResult n d) s = .next { s with busRdata := none }

/-- R191: `WR CTRL`. With bit 0 = 1 and no run in progress the counts are checked: `DONE` and `RESULT` are cleared, the
error bits are set as the counts say, and a run begins at LOAD exactly when neither count is bad. Otherwise there is no
effect. -/
def Obligations.StartCommand : Prop :=
  ∀ (s : State) (d : Word),
    (d.getLsbD 0 = true → s.busy = false →
      exec (.wrCtrl d) s = .next { s with
        busRdata := none
        done := false
        errRounds := decide (sint32 s.roundCount < 1)
        errIters := decide (sint32 s.iterCount < 1)
        result := ⟨0x00000000#32, 0x00000000#32, 0x00000000#32, 0x00000000#32⟩
        busy := decide (1 ≤ sint32 s.roundCount ∧ 1 ≤ sint32 s.iterCount)
        cs := if 1 ≤ sint32 s.roundCount ∧ 1 ≤ sint32 s.iterCount then csLoad else s.cs }) ∧
    (d.getLsbD 0 = false ∨ s.busy = true → exec (.wrCtrl d) s = .next { s with busRdata := none })

/-- R220, R222: a START acted on with a bad count sets exactly the bits of the bad counts in `STATUS`, leaves no run, no
result and an unchanged datapath, and no controller turn changes the state after it. The effect of R222 is derived by the
spec. That the step with no turn listed is the controller's is the model's choice (log 1), and that it changes nothing in
IDLE its reading (log 18). -/
def Obligations.RejectedStart : Prop :=
  ∀ (s : State) (d : Word), Inv s → d.getLsbD 0 = true → s.busy = false →
    (sint32 s.roundCount < 1 ∨ sint32 s.iterCount < 1) →
    ∃ t, exec (.wrCtrl d) s = .next t ∧ t.busy = false ∧ t.cs = csIdle ∧ t.done = false ∧
      (∀ n : Fin 4, t.result.get n = 0x00000000#32) ∧
      (t.w = s.w ∧ t.k = s.k ∧ t.p = s.p ∧ t.cursor = s.cursor ∧ t.iter = s.iter ∧ t.round = s.round) ∧
      (sint32 s.roundCount < 1 → 1 ≤ sint32 s.iterCount → statusWord t = 0x00000004#32) ∧
      (1 ≤ sint32 s.roundCount → sint32 s.iterCount < 1 → statusWord t = 0x00000008#32) ∧
      (sint32 s.roundCount < 1 → sint32 s.iterCount < 1 → statusWord t = 0x0000000C#32) ∧
      step { t with turns := [] } = .next { t with turns := [] }

/-- R226: after a rejected START, writing valid counts and START again clears the error bits and starts a run. -/
def Obligations.RecoveryFromConfigError : Prop :=
  ∀ (s : State) (rounds iters : Word), s.busy = false → 1 ≤ sint32 rounds → 1 ≤ sint32 iters →
    ∃ t, execSeq [.wrRoundCount rounds, .wrIterCount iters, .wrCtrl 0x00000001#32] s = .next t ∧
      statusWord t = 0x00000001#32 ∧ t.cs = csLoad ∧ t.roundCount = rounds ∧ t.iterCount = iters

/-- R60, R67: a write transaction at any offset but that of `CTRL` changes what no other register reads as; one of `CTRL`
changes what only `STATUS` and `RESULT` read as; and a read/write register reads back what was written when no run is in
progress. -/
def Obligations.WindowWriteFrame : Prop :=
  ∀ (w : BitVec 39) (s t : State), busWe w = true → exec (decodeBus w) s = .next t →
    (regOfOffset (busOff w) ≠ .ctrl → ∀ off : Offset, off.extractLsb' 2 4 ≠ (busOff w).extractLsb' 2 4 →
      memRead off t = memRead off s) ∧
    (regOfOffset (busOff w) = .ctrl → ∀ off : Offset, regOfOffset off ≠ .status →
      (∀ n, regOfOffset off ≠ .result n) → memRead off t = memRead off s) ∧
    (s.busy = false → 0x08 ≤ (busOff w).toNat → (busOff w).toNat < 0x30 → memRead (busOff w) t = busData w)

/-- R67: a read leaves the state as it was but for the returned data, and the same read again gives the same data; a
write of a read/write register is idempotent. -/
def Obligations.RepeatedTransactions : Prop :=
  ∀ (w : BitVec 39) (s t : State), exec (decodeBus w) s = .next t →
    (busWe w = false → t = { s with busRdata := some (memRead (busOff w) s) } ∧ exec (decodeBus w) t = .next t) ∧
    (busWe w = true → regOfOffset (busOff w) ≠ .ctrl → exec (decodeBus w) t = .next t)

/-- R29: a bus transaction neither changes the datapath state of 10_state.md section 3 nor lets anything that depends on
it reach the host: two states that differ only there answer alike. -/
def Obligations.HostCannotReachTheDatapath : Prop :=
  ∀ (i : Instr) (s : State) (w k p : Block) (cursor : BitVec 4) (iter round : Word), isBusInstr i = true →
    ∃ t, exec i s = .next t ∧
      (t.w = s.w ∧ t.k = s.k ∧ t.p = s.p ∧ t.cursor = s.cursor ∧ t.iter = s.iter ∧ t.round = s.round) ∧
      exec i { s with w := w, k := k, p := p, cursor := cursor, iter := iter, round := round } =
        .next { t with w := w, k := k, p := p, cursor := cursor, iter := iter, round := round }

/-! ## Flags -/

/-- R23: what sets and what clears each `STATUS` bit, over all instructions. -/
def Obligations.StatusBitsChangeOnlyAsListed : Prop :=
  ∀ (i : Instr) (s t : State), exec i s = .next t →
    (s.busy = false → t.busy = true → ∃ d, i = .wrCtrl d ∧ startAccepted d s) ∧
    (s.busy = true → t.busy = false → i = .finish) ∧
    (s.done = false → t.done = true → i = .finish) ∧
    (s.done = true → t.done = false → ∃ d, i = .wrCtrl d ∧ d.getLsbD 0 = true ∧ s.busy = false) ∧
    (s.errRounds = false → t.errRounds = true →
      ∃ d, i = .wrCtrl d ∧ d.getLsbD 0 = true ∧ s.busy = false ∧ sint32 s.roundCount < 1) ∧
    (s.errRounds = true → t.errRounds = false →
      ∃ d, i = .wrCtrl d ∧ d.getLsbD 0 = true ∧ s.busy = false ∧ 1 ≤ sint32 s.roundCount) ∧
    (s.errIters = false → t.errIters = true →
      ∃ d, i = .wrCtrl d ∧ d.getLsbD 0 = true ∧ s.busy = false ∧ sint32 s.iterCount < 1) ∧
    (s.errIters = true → t.errIters = false →
      ∃ d, i = .wrCtrl d ∧ d.getLsbD 0 = true ∧ s.busy = false ∧ 1 ≤ sint32 s.iterCount)

/-- R40, R190: the level outputs mirror `STATUS.BUSY`, `STATUS.DONE` and `ERR`. -/
def Obligations.OutputsMirrorStatus : Prop :=
  ∀ s : State, busyO s = (statusWord s).getLsbD 0 ∧ doneO s = (statusWord s).getLsbD 1 ∧
    errO s = ((statusWord s).getLsbD 2 || (statusWord s).getLsbD 3)

/-! ## Micro-operations -/

/-- R160: IDLE changes nothing, a controller turn in IDLE changes nothing but the list of turns, and of all instructions
that can be performed in IDLE only an accepted START leaves it, to LOAD. That the row IDLE and a controller turn in IDLE
change nothing is the model's reading (log 18), and that the controller moves when no turn is listed its choice
(log 1). -/
def Obligations.IdleTakesNoStep : Prop :=
  (∀ s : State, exec .idle s = .next s) ∧
  (∀ s : State, s.cs = csIdle → (s.turns = [] ∨ s.turns.head? = some .controller) →
    step s = .next { s with turns := s.turns.tail }) ∧
  (∀ (i : Instr) (s t : State), (isBusInstr i = true ∨ i = .idle) → s.cs = csIdle → exec i s = .next t → t.cs ≠ csIdle →
    t.cs = csLoad ∧ ∃ d, i = .wrCtrl d ∧ startAccepted d s)

/-- R161: LOAD. -/
def Obligations.LoadStep : Prop :=
  ∀ s : State, ∃ t, exec .load s = .next t ∧ t = { s with w := t.w, iter := 1#32, cs := csSnap } ∧
    ∀ r c : Fin 4, (t.w.cell r c).toNat = (s.block.get c).toNat / 2 ^ (24 - 8 * r.val) % 256

/-- R162: CHAIN. That the effect is the same in a state with `ITER` below 2, which the precondition of R162 shuts out and
no run reaches, is the model's choice (log 10). -/
def Obligations.ChainStep : Prop :=
  ∀ s : State, ∃ t, exec .chain s = .next t ∧ t = { s with w := t.w, cs := csSnap } ∧
    ∀ r c : Fin 4, t.w.cell r c = s.w.cell r c ^^^ s.p.cell r c

/-- R163: SNAP. -/
def Obligations.SnapStep : Prop :=
  ∀ s : State, exec .snap s = .next { s with p := s.w, cs := csKinit }

/-- R164, R140: KINIT. -/
def Obligations.KinitStep : Prop :=
  ∀ s : State, ∃ t, exec .kinit s = .next t ∧
    t = { s with k := t.k, cursor := 0x0#4, round := 0#32, cs := csWhiten } ∧
    ∀ r c : Fin 4, (t.k.cell r c).toNat = (s.key.get c).toNat / 2 ^ (24 - 8 * r.val) % 256

/-- R166: WHITEN. -/
def Obligations.WhitenStep : Prop :=
  ∀ s : State, ∃ t, exec .whiten s = .next t ∧ t = { s with w := t.w, round := 1#32, cs := csSubshift } ∧
    ∀ r c : Fin 4, t.w.cell r c = s.w.cell r c ^^^ s.k.cell r c

/-- R167, R124: SUBSHIFT, byte by byte, and its successor. -/
def Obligations.SubshiftStep : Prop :=
  ∀ s : State, ∃ t, exec .subshift s = .next t ∧ t = { s with w := t.w, cs := t.cs } ∧
    (∀ r c : Fin 4, t.w.cell r c = sbox (s.w.cell r (c + r))) ∧
    (s.round.toNat < s.roundCount.toNat → t.cs = csMixcol) ∧
    (s.roundCount.toNat ≤ s.round.toNat → t.cs = csKexp)

/-- R168, R127: MIXCOL, byte by byte in terms of `xtime` alone. That the effect is the same in a state with `ROUND` not
below `R`, which the precondition of R168 shuts out and no run reaches, is the model's choice (log 10). -/
def Obligations.MixcolStep : Prop :=
  ∀ s : State, ∃ t, exec .mixcol s = .next t ∧ t = { s with w := t.w, cs := csKexp } ∧
    ∀ r c : Fin 4, t.w.cell r c =
      xtime (s.w.cell r c) ^^^ xtime (s.w.cell (r + 1) c) ^^^ s.w.cell (r + 1) c ^^^ s.w.cell (r + 2) c ^^^ s.w.cell (r + 3) c

/-- R169, R145: KEXP, byte by byte; the round constant is the one at the cursor before it advances. -/
def Obligations.KexpStep : Prop :=
  ∀ s : State, ∃ t, exec .kexp s = .next t ∧ t = { s with k := t.k, cursor := t.cursor, cs := csArk } ∧
    t.cursor.toNat = (s.cursor.toNat + 1) % Config.rconLen ∧
    t.k.cell 0 0 = s.k.cell 0 0 ^^^ (sbox (s.k.cell 1 3) ^^^ rcon s.cursor) ∧
    (∀ r : Fin 4, r ≠ 0 → t.k.cell r 0 = s.k.cell r 0 ^^^ sbox (s.k.cell (r + 1) 3)) ∧
    (∀ r : Fin 4, t.k.cell r 1 = s.k.cell r 1 ^^^ t.k.cell r 0 ∧ t.k.cell r 2 = s.k.cell r 2 ^^^ t.k.cell r 1 ∧
      t.k.cell r 3 = s.k.cell r 3 ^^^ t.k.cell r 2)

/-- R170: ARK, with its three successors. -/
def Obligations.ArkStep : Prop :=
  ∀ s : State, ∃ t, exec .ark s = .next t ∧ t = { s with w := t.w, round := t.round, iter := t.iter, cs := t.cs } ∧
    (∀ r c : Fin 4, t.w.cell r c = s.w.cell r c ^^^ s.k.cell r c) ∧
    (s.round.toNat < s.roundCount.toNat →
      t.round.toNat = s.round.toNat + 1 ∧ t.iter = s.iter ∧ t.cs = csSubshift) ∧
    (s.roundCount.toNat ≤ s.round.toNat → s.iter.toNat < s.iterCount.toNat →
      t.iter.toNat = s.iter.toNat + 1 ∧ t.round = s.round ∧ t.cs = csChain) ∧
    (s.roundCount.toNat ≤ s.round.toNat → s.iterCount.toNat ≤ s.iter.toNat →
      t.round = s.round ∧ t.iter = s.iter ∧ t.cs = csFinish)

/-- R172: FINISH writes all four result registers, `DONE`, `BUSY` and `cs` in the one step, and nothing else. -/
def Obligations.FinishStep : Prop :=
  ∀ s : State, ∃ t, exec .finish s = .next t ∧
    t = { s with result := t.result, done := true, busy := false, cs := csIdle } ∧
    ∀ r c : Fin 4, (t.result.get c).toNat / 2 ^ (24 - 8 * r.val) % 256 = (s.w.cell r c).toNat

/-- R171: the successor of every state, as the table gives it; a bus transaction transfers control only as an accepted
START, to LOAD. That CHAIN and MIXCOL have their successors also where the preconditions of R162 and R168 fail is the
model's choice (log 10), and that a controller turn in IDLE stays there its reading (log 18). -/
def Obligations.SuccessorTable : Prop :=
  ∀ (i : Instr) (s t : State), exec i s = .next t →
    (encode i = .uop s.cs →
      (s.cs = csIdle → t.cs = csIdle) ∧ (s.cs = csLoad → t.cs = csSnap) ∧ (s.cs = csChain → t.cs = csSnap) ∧
      (s.cs = csSnap → t.cs = csKinit) ∧ (s.cs = csKinit → t.cs = csWhiten) ∧ (s.cs = csWhiten → t.cs = csSubshift) ∧
      (s.cs = csSubshift → t.cs = if s.round.toNat < s.roundCount.toNat then csMixcol else csKexp) ∧
      (s.cs = csMixcol → t.cs = csKexp) ∧ (s.cs = csKexp → t.cs = csArk) ∧
      (s.cs = csArk → t.cs = if s.round.toNat < s.roundCount.toNat then csSubshift
        else if s.iter.toNat < s.iterCount.toNat then csChain else csFinish) ∧
      (s.cs = csFinish → t.cs = csIdle)) ∧
    (isBusInstr i = true → t.cs = s.cs ∨ t.cs = csLoad ∧ ∃ d, i = .wrCtrl d ∧ startAccepted d s)

/-- R26, R27, R28, R40: no micro-operation writes a configuration register or returns bus data, and only FINISH writes
`RESULT` or a flag. -/
def Obligations.MicroOperationsLeaveHostRegisters : Prop :=
  ∀ (i : Instr) (s t : State), isBusInstr i = false → exec i s = .next t →
    t.roundCount = s.roundCount ∧ t.iterCount = s.iterCount ∧ t.key = s.key ∧ t.block = s.block ∧
    t.busRdata = s.busRdata ∧ t.errRounds = s.errRounds ∧ t.errIters = s.errIters ∧
    (i ≠ .finish → t.result = s.result ∧ t.busy = s.busy ∧ t.done = s.done)

/-! ## The datapath functions -/

/-- R62: packing and unpacking are inverse, and byte number `k` is bits `31-8(k mod 4)` to `24-8(k mod 4)` of register
`k div 4`. -/
def Obligations.PackingIsABijection : Prop :=
  (∀ B : Block, unpack (pack B) = B) ∧ (∀ v : Four Word, pack (unpack v) = v) ∧
  (∀ (B : Block) (k : Fin 16) (c : Fin 4), c.val = k.val / 4 →
    (blockByte B k).toNat = ((pack B).get c).toNat / 2 ^ (24 - 8 * (k.val % 4)) % 256)

/-- The substitution table of R100 is a bijection on bytes with no fixed point. The table is the spec's reference table, which
the model fixes (log 8). -/
def Obligations.SubstitutionIsABijection : Prop :=
  Function.Bijective sbox ∧ ∀ b : Byte, sbox b ≠ b

/-- R105: `xtime` is linear. -/
def Obligations.XtimeIsLinear : Prop :=
  ∀ a b : Byte, xtime (a ^^^ b) = xtime a ^^^ xtime b

/-- R107 (derived by the spec): each round constant is `xtime` of the one before, starting at 0x01. The table is the spec's
reference table, which the model fixes (log 8). -/
def Obligations.RoundConstantsChain : Prop :=
  rcon 0x0#4 = 0x01#8 ∧ ∀ j : Fin 9, rcon (BitVec.ofNat 4 (j.val + 1)) = xtime (rcon (BitVec.ofNat 4 j.val))

/-- R122: ShiftRows as a permutation of byte numbers. -/
def Obligations.ShiftRowsMovesByteNumbers : Prop :=
  ∀ (A : Block) (k src : Fin 16), src.val = 4 * ((k.val / 4 + k.val % 4) % 4) + k.val % 4 →
    blockByte (shiftRows A) k = blockByte A src

/-- R123: SubBytes and ShiftRows commute. -/
def Obligations.SubBytesCommutesWithShiftRows : Prop :=
  ∀ A : Block, shiftRows (subBytes A) = subBytes (shiftRows A)

/-- R129: AddRoundKey is self-inverse. -/
def Obligations.AddRoundKeyIsSelfInverse : Prop :=
  ∀ A Kr : Block, addRoundKey (addRoundKey A Kr) Kr = A

/-- R146, R147: round key `j` is the result of `j` steps from the key, and the step to round key `j + 1` uses the round
constant `j mod RCON_LEN`, so the sequence is reused from round key `RCON_LEN` + 1 on. -/
def Obligations.RoundKeysReuseTheConstants : Prop :=
  ∀ (key : Block) (j : Nat),
    (roundKey key 0).1 = key ∧ (roundKey key j).2.toNat = j % Config.rconLen ∧
    (roundKey key (j + 1)).1 = deriveKey (roundKey key j).1 (BitVec.ofNat 4 (j % Config.rconLen))

/-! ## Runs -/

/-- The control invariant (R28, R33 to R37, R194) is kept by every step of either agent. -/
def Obligations.StepKeepsControlInvariant : Prop :=
  ∀ s t : State, Inv s → step s = .next t → Inv t

/-- The datapath invariant (R146, R165, R173, R174) is kept by every step of either agent. -/
def Obligations.StepKeepsDatapathInvariant : Prop :=
  ∀ s t : State, Inv s → RunInv s → step s = .next t → RunInv t

/-- R193, R73: while `BUSY` = 1 a write of a configuration register completes and changes nothing, and no step of either
agent but a reset changes a configuration register. -/
def Obligations.ConfigurationIsFixedDuringARun : Prop :=
  ∀ s : State, s.busy = true →
    (∀ (n : Fin 4) (d : Word),
      exec (.wrRoundCount d) s = .next { s with busRdata := none } ∧
      exec (.wrIterCount d) s = .next { s with busRdata := none } ∧
      exec (.wrKey n d) s = .next { s with busRdata := none } ∧
      exec (.wrBlock n d) s = .next { s with busRdata := none }) ∧
    (∀ t : State, (∀ c rest, s.turns = .host c :: rest → c.rstN = true) → step s = .next t →
      t.roundCount = s.roundCount ∧ t.iterCount = s.iterCount ∧ t.key = s.key ∧ t.block = s.block)

/-- R175: from the state an accepted START leaves, under every interleaving without a reset, the controller takes exactly
`N*(4R+3)+1` steps: before the last of them the engine is busy, and after it `RESULT` is the result of Run, `STATUS` is
0x00000002, `cs` is IDLE and the configuration is unchanged. -/
def Obligations.RunUnderEveryInterleaving : Prop :=
  ∀ (s : State) (d : Word), Inv s → startAccepted d s → ∃ a, exec (.wrCtrl d) s = .next a ∧ a.cs = csLoad ∧
    (∀ ts : List Turn, noReset ts = true → controllerTurns ts < runSteps s.roundCount.toNat s.iterCount.toNat →
      ∃ t : State, Host.Core.run Sys2Proof.core ts.length { a with turns := ts } = .next t ∧ t.cs ≠ csIdle ∧
        statusWord t = 0x00000001#32) ∧
    (∀ ts : List Turn, noReset ts = true → controllerTurns ts + 1 = runSteps s.roundCount.toNat s.iterCount.toNat →
      ∃ t : State, Host.Core.run Sys2Proof.core (ts.length + 1) { a with turns := ts ++ [.controller] } = .next t ∧
        t.cs = csIdle ∧ statusWord t = 0x00000002#32 ∧
        t.result = pack (runBlocks (keyB s) (blockB s) s.roundCount.toNat s.iterCount.toNat) ∧
        t.roundCount = s.roundCount ∧ t.iterCount = s.iterCount ∧ t.key = s.key ∧ t.block = s.block)

/-- R176: the result depends only on key, block and counts: two accepted STARTs from states that agree on these end in
the same `RESULT`, whatever else the states hold and however the agents interleave. -/
def Obligations.ResultDependsOnlyOnConfiguration : Prop :=
  ∀ (s s' : State) (d d' : Word) (ts ts' : List Turn) (a a' t t' : State),
    Inv s → Inv s' → startAccepted d s → startAccepted d' s' →
    s'.roundCount = s.roundCount → s'.iterCount = s.iterCount → s'.key = s.key → s'.block = s.block →
    noReset ts = true → noReset ts' = true →
    controllerTurns ts + 1 = runSteps s.roundCount.toNat s.iterCount.toNat →
    controllerTurns ts' + 1 = runSteps s.roundCount.toNat s.iterCount.toNat →
    exec (.wrCtrl d) s = .next a → exec (.wrCtrl d') s' = .next a' →
    Host.Core.run Sys2Proof.core (ts.length + 1) { a with turns := ts ++ [.controller] } = .next t →
    Host.Core.run Sys2Proof.core (ts'.length + 1) { a' with turns := ts' ++ [.controller] } = .next t' →
    t.result = t'.result

/-- R177, R178: with one round MIXCOL never runs, with one iteration CHAIN never runs, and the results are whitening, one
SubShift and one AddRoundKey with round key 1, and the encryption of the initial block. -/
def Obligations.BoundaryCounts : Prop :=
  (∀ s : State, Inv s → s.roundCount.toNat = 1 → s.cs ≠ csMixcol) ∧
  (∀ s : State, Inv s → s.busy = true → s.iterCount.toNat = 1 → s.cs ≠ csChain) ∧
  (∀ A key : Block, encryptBlock A key 1 = addRoundKey (subShift (addRoundKey A key)) (roundKey key 1).1) ∧
  (∀ (key blk : Block) (R : Nat), runBlocks key blk R 1 = encryptBlock blk key R)

/-- R179, R250: from any state of a run that meets the invariant, with the host silent, the controller reaches IDLE with
`DONE` = 1 within the number of steps of a whole run. That the controller moves whenever no turn is listed is the model's
form of weak fairness (log 1). -/
def Obligations.EveryRunTerminates : Prop :=
  ∀ s : State, Inv s → s.busy = true → s.turns = [] →
    ∃ (n : Nat) (t : State), 1 ≤ n ∧ n ≤ runSteps s.roundCount.toNat s.iterCount.toNat ∧
      Host.Core.run Sys2Proof.core n s = .next t ∧ t.cs = csIdle ∧ t.done = true ∧ t.busy = false

/-- R247, R248: after an accepted START and any number of controller turns, a read of `STATUS` returns 0x00000001 while
the run goes on and 0x00000002 once it has ended, and the polling of `WAIT` ends exactly on the latter. The number of
steps of a run is that of R175. That the controller turns beyond it, taken in IDLE, change nothing is the model's reading
(log 18). -/
def Obligations.PollingStatusSeesTheEnd : Prop :=
  ∀ (s : State) (d : Word) (n : Nat), Inv s → startAccepted d s → ∃ (a : State) (turn : Turn) (t : State) (v : Word),
    exec (.wrCtrl d) s = .next a ∧ turnOf .rdStatus = some turn ∧
    Host.Core.run Sys2Proof.core (n + 1) { a with turns := List.replicate n .controller ++ [turn] } = .next t ∧
    t.busRdata = some v ∧
    v = (if n < runSteps s.roundCount.toNat s.iterCount.toNat then 0x00000001#32 else 0x00000002#32) ∧
    waitEnds v = decide (runSteps s.roundCount.toNat s.iterCount.toNat ≤ n)

/-- R89: `POLL` reads its register at least once and repeats while `(value read & mask) != value`. Under every interleaving
with the controller each transaction completes, all are reads of the register, the loop ends with the first read that
meets the condition, and it goes on as long as none does. `WAIT` is `POLL STATUS, 1, 0`. The interleaving is the list of
the numbers of controller turns before each read (log 17); turns taken in IDLE change nothing (log 18). -/
def Obligations.PollReadsUntilTheConditionHolds : Prop :=
  (∀ (reg : ScriptReg) (mask value : Nat) (gaps : List Nat) (s : State), (ScriptLine.poll reg mask value).wf = true →
    StateCode.legal s.cs = true → ∃ r, runLine (.poll reg mask value) gaps s = some (.next r) ∧
      r.issued = List.replicate r.issued.length (readInstr (scriptReg reg)) ∧
      (r.issued ≠ [] → r.state.busRdata = some (readReg (scriptReg reg) r.state)) ∧
      (r.ended = true ↔ r.issued ≠ [] ∧ (readReg (scriptReg reg) r.state).toNat &&& mask = value) ∧
      (r.ended = false → r.issued.length = gaps.length) ∧
      (∀ k, k < r.issued.length → ∃ q, runLine (.poll reg mask value) (gaps.take k) s = some (.next q) ∧
        q.issued.length = k ∧ q.ended = false)) ∧
  (∀ (gaps : List Nat) (s : State), runLine .wait gaps s = runLine (.poll (.name .status) 0x00000001 0x00000000) gaps s)

/-- R248: after an accepted START `WAIT` ends, under every interleaving that gives the controller the steps of the run
(R175), with the read after the last of them, which returns 0x00000002, and `RESULT` then holds the result of Run; under
one that gives fewer it has not ended. The interleaving is the list of the numbers of controller turns before each read
(log 17); turns taken in IDLE change nothing (log 18). -/
def Obligations.WaitEndsWithTheResult : Prop :=
  ∀ (s : State) (d : Word) (gaps : List Nat), Inv s → startAccepted d s → ∃ (a : State) (r : LineRun),
    exec (.wrCtrl d) s = .next a ∧ runLine .wait gaps a = some (.next r) ∧
    r.ended = decide (runSteps s.roundCount.toNat s.iterCount.toNat ≤ gaps.sum) ∧
    (∀ k, k < r.issued.length ↔
      k < gaps.length ∧ (gaps.take k).sum < runSteps s.roundCount.toNat s.iterCount.toNat) ∧
    (r.ended = true → r.state.busRdata = some 0x00000002#32 ∧ r.state.cs = csIdle ∧
      r.state.result = pack (runBlocks (keyB s) (blockB s) s.roundCount.toNat s.iterCount.toNat))
end

