-- ==== Sys2Proof/Laws/Codec.lean ====
section
/-! SUPPORT. The fields of an assembled `BUS` word, and the register an offset selects. -/

namespace Sys2Proof

/-- The bits of an assembled word (R81). -/
theorem getLsbD_busWordOf (we : Bool) (off : Offset) (d : Word) (i : Nat) :
    (busWordOf we off d).getLsbD i =
      if i < 32 then d.getLsbD i
      else if i - 32 < 6 then off.getLsbD (i - 32) else (BitVec.ofBool we).getLsbD (i - 32 - 6) := by
  have outer : (busWordOf we off d).getLsbD i =
      if i < 32 then d.getLsbD i else (BitVec.ofBool we ++ off).getLsbD (i - 32) :=
    BitVec.getLsbD_append
  have inner : (BitVec.ofBool we ++ off).getLsbD (i - 32) =
      if i - 32 < 6 then off.getLsbD (i - 32) else (BitVec.ofBool we).getLsbD (i - 32 - 6) :=
    BitVec.getLsbD_append
  rw [outer, inner]

@[simp] theorem busWe_busWordOf (we : Bool) (off : Offset) (d : Word) : busWe (busWordOf we off d) = we := by
  rw [busWe, getLsbD_busWordOf]; cases we <;> rfl

@[simp] theorem busOff_busWordOf (we : Bool) (off : Offset) (d : Word) : busOff (busWordOf we off d) = off := by
  apply BitVec.eq_of_getLsbD_eq
  intro i hi
  simp only [busOff, BitVec.getLsbD_extractLsb', getLsbD_busWordOf, hi, decide_true, Bool.true_and]
  rw [if_neg (by omega), if_pos (by omega)]
  congr 1; omega

@[simp] theorem busData_busWordOf (we : Bool) (off : Offset) (d : Word) : busData (busWordOf we off d) = d := by
  apply BitVec.eq_of_getLsbD_eq
  intro i hi
  simp only [busData, BitVec.getLsbD_extractLsb', getLsbD_busWordOf, hi, decide_true, Bool.true_and]
  rw [if_pos (by omega)]
  congr 1; omega

/-- The pins of a cycle put the word back together (R81). -/
theorem busWordOf_fields (w : BitVec 39) : busWordOf (busWe w) (busOff w) (busData w) = w := by
  apply BitVec.eq_of_getLsbD_eq
  intro i hi
  simp only [getLsbD_busWordOf, busWe, busOff, busData, BitVec.getLsbD_extractLsb']
  split
  · next h => simp [h]
  · split
    · next h => simp only [h, decide_true, Bool.true_and]; congr 1; omega
    · have : i = 38 := by omega
      subst this; cases w.getLsbD 38 <;> rfl

/-- Each register is selected by its own offset (R21 against R83). -/
@[simp] theorem regOfOffset_regOffset (r : Reg) : regOfOffset (regOffset r) = r := by
  cases r with
  | ctrl => rfl
  | status => rfl
  | roundCount => rfl
  | iterCount => rfl
  | key n => fin_cases n <;> rfl
  | block n => fin_cases n <;> rfl
  | result n => fin_cases n <;> rfl

/-- What a read word decodes to. -/
theorem decodeBus_read (off : Offset) (d : Word) :
    decodeBus (busWordOf false off d) = readInstr (regOfOffset off) := by
  simp [decodeBus]

/-- What a write word decodes to. -/
theorem decodeBus_write (off : Offset) (d : Word) :
    decodeBus (busWordOf true off d) = writeInstr d (regOfOffset off) := by
  simp [decodeBus]

/-- `OFF[1:0]` is not examined (R65, R83). -/
theorem regOfOffset_congr {a b : Offset} (h : a.extractLsb' 2 4 = b.extractLsb' 2 4) :
    regOfOffset a = regOfOffset b := by
  revert a b; decide

end Sys2Proof
end

