-- ==== Sys2Proof/Laws/Word.lean ====
section
/-! SUPPORT. Small lemmas of the data types: groups of four, blocks. -/

namespace Sys2Proof

namespace Four

variable {α β γ : Type}

@[simp] theorem get_zero (v : Four α) : v.get 0 = v.e0 := rfl
@[simp] theorem get_one (v : Four α) : v.get 1 = v.e1 := rfl
@[simp] theorem get_two (v : Four α) : v.get 2 = v.e2 := rfl
@[simp] theorem get_three (v : Four α) : v.get 3 = v.e3 := rfl

@[simp] theorem get_ofFn (f : Fin 4 → α) (i : Fin 4) : (ofFn f).get i = f i := by
  fin_cases i <;> rfl

@[simp] theorem ofFn_get (v : Four α) : ofFn v.get = v := rfl

@[simp] theorem get_fill (x : α) (i : Fin 4) : (fill x).get i = x := by
  fin_cases i <;> rfl

@[simp] theorem get_map (f : α → β) (v : Four α) (i : Fin 4) : (v.map f).get i = f (v.get i) := by
  simp [map]

@[simp] theorem get_zipWith (f : α → β → γ) (u : Four α) (v : Four β) (i : Fin 4) :
    (zipWith f u v).get i = f (u.get i) (v.get i) := by
  simp [zipWith]

/-- Two groups are equal when their elements are. -/
theorem ext_get {u v : Four α} (h : ∀ i, u.get i = v.get i) : u = v :=
  Four.ext (h 0) (h 1) (h 2) (h 3)

@[simp] theorem get_set_same (v : Four α) (i : Fin 4) (x : α) : (v.set i x).get i = x := by
  fin_cases i <;> rfl

theorem get_set_ne (v : Four α) {i j : Fin 4} (x : α) (h : j ≠ i) : (v.set i x).get j = v.get j := by
  fin_cases i <;> fin_cases j <;> first | rfl | exact absurd rfl h

/-- A read after a write: the value written, or the old one. -/
theorem get_set (v : Four α) (i j : Fin 4) (x : α) : (v.set i x).get j = if j = i then x else v.get j := by
  by_cases h : j = i
  · subst h; simp
  · rw [get_set_ne v x h, if_neg h]

@[simp] theorem set_set (v : Four α) (i : Fin 4) (x y : α) : (v.set i x).set i y = v.set i y := by
  fin_cases i <;> rfl

end Four

namespace Block

@[simp] theorem cell_ofFn (f : Fin 4 → Fin 4 → Byte) (r c : Fin 4) : (ofFn f).cell r c = f r c := by
  simp [ofFn, cell]

/-- Two blocks are equal when their bytes are. -/
theorem ext_cell {A B : Block} (h : ∀ r c, A.cell r c = B.cell r c) : A = B :=
  Four.ext_get fun c => Four.ext_get fun r => h r c

@[simp] theorem cell_zero (r c : Fin 4) : zero.cell r c = 0x00#8 := by
  simp [zero, cell]

end Block

end Sys2Proof
end

