-- ==== Sys2Proof/Laws/Datapath.lean ====
section
/-! SUPPORT. One lemma per datapath function: its bytes. -/

namespace Sys2Proof.Machine

/-- The substitution table has 16 rows of 16 entries, so the default of `sbox` is never read (R100). -/
theorem sboxRow_length (b : Byte) : (sboxRow (b.toNat / 16)).length = 16 := by
  revert b; decide

theorem rconTable_length : rconTable.length = Config.rconLen := rfl

@[simp] theorem subBytes_cell (A : Block) (r c : Fin 4) : (subBytes A).cell r c = sbox (A.cell r c) := by
  simp [subBytes]

@[simp] theorem shiftRows_cell (A : Block) (r c : Fin 4) : (shiftRows A).cell r c = A.cell r (c + r) := by
  simp [shiftRows]

@[simp] theorem subShift_cell (A : Block) (r c : Fin 4) : (subShift A).cell r c = sbox (A.cell r (c + r)) := by
  simp [subShift]

/-- The equation of R125, with row numbers modulo 4. -/
theorem mixColumn_get (a : Column) (r : Fin 4) :
    (mixColumn a).get r = gmul2 (a.get r) ^^^ gmul3 (a.get (r + 1)) ^^^ a.get (r + 2) ^^^ a.get (r + 3) := by
  fin_cases r
  · rfl
  · change gmul1 a.e0 ^^^ gmul2 a.e1 ^^^ gmul3 a.e2 ^^^ gmul1 a.e3 = gmul2 a.e1 ^^^ gmul3 a.e2 ^^^ a.e3 ^^^ a.e0
    simp only [gmul1]; ac_rfl
  · change gmul1 a.e0 ^^^ gmul1 a.e1 ^^^ gmul2 a.e2 ^^^ gmul3 a.e3 = gmul2 a.e2 ^^^ gmul3 a.e3 ^^^ a.e0 ^^^ a.e1
    simp only [gmul1]; ac_rfl
  · change gmul3 a.e0 ^^^ gmul1 a.e1 ^^^ gmul1 a.e2 ^^^ gmul2 a.e3 = gmul2 a.e3 ^^^ gmul3 a.e0 ^^^ a.e1 ^^^ a.e2
    simp only [gmul1]; ac_rfl

theorem mixColumns_get (A : Block) (c : Fin 4) : (mixColumns A).get c = mixColumn (A.get c) := by
  simp [mixColumns]

@[simp] theorem addRoundKey_cell (A B : Block) (r c : Fin 4) :
    (addRoundKey A B).cell r c = A.cell r c ^^^ B.cell r c := by
  simp [addRoundKey]

@[simp] theorem xorColumn_get (a b : Column) (r : Fin 4) : (xorColumn a b).get r = a.get r ^^^ b.get r := by
  simp [xorColumn]

@[simp] theorem rotWord_get (K : Block) (r : Fin 4) : (rotWord K).get r = K.cell (r + 1) 3 := by
  simp [rotWord]

@[simp] theorem subWord_get (t : Column) (r : Fin 4) : (subWord t).get r = sbox (t.get r) := by
  simp [subWord]

/-- The round constant goes into row 0 only (R143). -/
theorem rconXor_get (u : Column) (cur : BitVec 4) (r : Fin 4) :
    (rconXor u cur).get r = if r = 0 then u.get r ^^^ rcon cur else u.get r := by
  fin_cases r <;> rfl

/-- The new first column (R144). -/
theorem deriveKey_cell_zero (K : Block) (cur : BitVec 4) (r : Fin 4) :
    (deriveKey K cur).cell r 0 = K.cell r 0 ^^^ (rconXor (subWord (rotWord K)) cur).get r :=
  xorColumn_get _ _ r

/-- Each later new column is the old one XOR the new one before it (R144). -/
theorem deriveKey_cell_succ (K : Block) (cur : BitVec 4) (r : Fin 4) :
    (deriveKey K cur).cell r 1 = K.cell r 1 ^^^ (deriveKey K cur).cell r 0 ∧
      (deriveKey K cur).cell r 2 = K.cell r 2 ^^^ (deriveKey K cur).cell r 1 ∧
      (deriveKey K cur).cell r 3 = K.cell r 3 ^^^ (deriveKey K cur).cell r 2 :=
  ⟨xorColumn_get _ _ r, xorColumn_get _ _ r, xorColumn_get _ _ r⟩

/-- The cursor stays in the table (R33). -/
theorem advanceCursor_lt (c : BitVec 4) : (advanceCursor c).toNat < Config.rconLen := by
  revert c; decide

/-- Row `r` of column `c` is bits 31-8r : 24-8r of register `c` (R62). -/
@[simp] theorem unpack_cell (v : Four Word) (r c : Fin 4) :
    (unpack v).cell r c = (v.get c).extractLsb' (24 - 8 * r.val) 8 := by
  simp [unpack, unpackColumn, Block.cell]

theorem pack_get (B : Block) (c : Fin 4) : (pack B).get c = packColumn (B.get c) := by
  simp [pack]

/-! ## The loops of R173 and R174, one turn at a time -/

theorem roundsDone_zero (A key : Block) (R : Nat) : roundsDone A key R 0 = (addRoundKey A key, key, 0x0#4) := rfl

theorem roundsDone_succ (A key : Block) (R j : Nat) :
    roundsDone A key R (j + 1) =
      (roundFn (roundsDone A key R j).1
          (deriveKey (roundsDone A key R j).2.1 (roundsDone A key R j).2.2) (j + 1 == R),
        deriveKey (roundsDone A key R j).2.1 (roundsDone A key R j).2.2,
        advanceCursor (roundsDone A key R j).2.2) := rfl

theorem iterationsDone_zero (key blk : Block) (R : Nat) :
    iterationsDone key blk R 0 = (encryptBlock blk key R, blk) := rfl

theorem iterationsDone_succ (key blk : Block) (R i : Nat) :
    iterationsDone key blk R (i + 1) =
      (encryptBlock (addRoundKey (iterationsDone key blk R i).1 (iterationsDone key blk R i).2) key R,
        addRoundKey (iterationsDone key blk R i).1 (iterationsDone key blk R i).2) := rfl

/-- Every iteration ends with the encryption of its own input (R165). -/
theorem iterationsDone_fst (key blk : Block) (R i : Nat) :
    (iterationsDone key blk R i).1 = encryptBlock (iterationsDone key blk R i).2 key R := by
  cases i <;> rfl

end Sys2Proof.Machine
end

