-- ==== Sys2Proof/Laws/State.lean ====
section
/-! SUPPORT. For each named update of the state, every field after it, so that no proof unfolds a record update. -/

namespace Sys2Proof.Machine

/-! ### answerRead (R82) -/

@[simp] theorem answerRead_roundCount (v : Word) (s : State) : (answerRead v s).roundCount = s.roundCount := rfl
@[simp] theorem answerRead_iterCount (v : Word) (s : State) : (answerRead v s).iterCount = s.iterCount := rfl
@[simp] theorem answerRead_key (v : Word) (s : State) : (answerRead v s).key = s.key := rfl
@[simp] theorem answerRead_block (v : Word) (s : State) : (answerRead v s).block = s.block := rfl
@[simp] theorem answerRead_result (v : Word) (s : State) : (answerRead v s).result = s.result := rfl
@[simp] theorem answerRead_busy (v : Word) (s : State) : (answerRead v s).busy = s.busy := rfl
@[simp] theorem answerRead_done (v : Word) (s : State) : (answerRead v s).done = s.done := rfl
@[simp] theorem answerRead_errRounds (v : Word) (s : State) : (answerRead v s).errRounds = s.errRounds := rfl
@[simp] theorem answerRead_errIters (v : Word) (s : State) : (answerRead v s).errIters = s.errIters := rfl
@[simp] theorem answerRead_w (v : Word) (s : State) : (answerRead v s).w = s.w := rfl
@[simp] theorem answerRead_k (v : Word) (s : State) : (answerRead v s).k = s.k := rfl
@[simp] theorem answerRead_p (v : Word) (s : State) : (answerRead v s).p = s.p := rfl
@[simp] theorem answerRead_cursor (v : Word) (s : State) : (answerRead v s).cursor = s.cursor := rfl
@[simp] theorem answerRead_iter (v : Word) (s : State) : (answerRead v s).iter = s.iter := rfl
@[simp] theorem answerRead_round (v : Word) (s : State) : (answerRead v s).round = s.round := rfl
@[simp] theorem answerRead_cs (v : Word) (s : State) : (answerRead v s).cs = s.cs := rfl
@[simp] theorem answerRead_busRdata (v : Word) (s : State) : (answerRead v s).busRdata = some v := rfl
@[simp] theorem answerRead_turns (v : Word) (s : State) : (answerRead v s).turns = s.turns := rfl
@[simp] theorem answerRead_freeIx (v : Word) (s : State) : (answerRead v s).freeIx = s.freeIx := rfl

/-! ### answerWrite (R84) -/

@[simp] theorem answerWrite_roundCount (s : State) : (answerWrite s).roundCount = s.roundCount := rfl
@[simp] theorem answerWrite_iterCount (s : State) : (answerWrite s).iterCount = s.iterCount := rfl
@[simp] theorem answerWrite_key (s : State) : (answerWrite s).key = s.key := rfl
@[simp] theorem answerWrite_block (s : State) : (answerWrite s).block = s.block := rfl
@[simp] theorem answerWrite_result (s : State) : (answerWrite s).result = s.result := rfl
@[simp] theorem answerWrite_busy (s : State) : (answerWrite s).busy = s.busy := rfl
@[simp] theorem answerWrite_done (s : State) : (answerWrite s).done = s.done := rfl
@[simp] theorem answerWrite_errRounds (s : State) : (answerWrite s).errRounds = s.errRounds := rfl
@[simp] theorem answerWrite_errIters (s : State) : (answerWrite s).errIters = s.errIters := rfl
@[simp] theorem answerWrite_w (s : State) : (answerWrite s).w = s.w := rfl
@[simp] theorem answerWrite_k (s : State) : (answerWrite s).k = s.k := rfl
@[simp] theorem answerWrite_p (s : State) : (answerWrite s).p = s.p := rfl
@[simp] theorem answerWrite_cursor (s : State) : (answerWrite s).cursor = s.cursor := rfl
@[simp] theorem answerWrite_iter (s : State) : (answerWrite s).iter = s.iter := rfl
@[simp] theorem answerWrite_round (s : State) : (answerWrite s).round = s.round := rfl
@[simp] theorem answerWrite_cs (s : State) : (answerWrite s).cs = s.cs := rfl
@[simp] theorem answerWrite_busRdata (s : State) : (answerWrite s).busRdata = none := rfl
@[simp] theorem answerWrite_turns (s : State) : (answerWrite s).turns = s.turns := rfl
@[simp] theorem answerWrite_freeIx (s : State) : (answerWrite s).freeIx = s.freeIx := rfl

/-! ### answerFree (R84, S1) -/

@[simp] theorem answerFree_roundCount (s : State) : (answerFree s).roundCount = s.roundCount := rfl
@[simp] theorem answerFree_iterCount (s : State) : (answerFree s).iterCount = s.iterCount := rfl
@[simp] theorem answerFree_key (s : State) : (answerFree s).key = s.key := rfl
@[simp] theorem answerFree_block (s : State) : (answerFree s).block = s.block := rfl
@[simp] theorem answerFree_result (s : State) : (answerFree s).result = s.result := rfl
@[simp] theorem answerFree_busy (s : State) : (answerFree s).busy = s.busy := rfl
@[simp] theorem answerFree_done (s : State) : (answerFree s).done = s.done := rfl
@[simp] theorem answerFree_errRounds (s : State) : (answerFree s).errRounds = s.errRounds := rfl
@[simp] theorem answerFree_errIters (s : State) : (answerFree s).errIters = s.errIters := rfl
@[simp] theorem answerFree_w (s : State) : (answerFree s).w = s.w := rfl
@[simp] theorem answerFree_k (s : State) : (answerFree s).k = s.k := rfl
@[simp] theorem answerFree_p (s : State) : (answerFree s).p = s.p := rfl
@[simp] theorem answerFree_cursor (s : State) : (answerFree s).cursor = s.cursor := rfl
@[simp] theorem answerFree_iter (s : State) : (answerFree s).iter = s.iter := rfl
@[simp] theorem answerFree_round (s : State) : (answerFree s).round = s.round := rfl
@[simp] theorem answerFree_cs (s : State) : (answerFree s).cs = s.cs := rfl
@[simp] theorem answerFree_busRdata (s : State) : (answerFree s).busRdata = some (Config.freeRdata s.freeIx) := rfl
@[simp] theorem answerFree_turns (s : State) : (answerFree s).turns = s.turns := rfl
@[simp] theorem answerFree_freeIx (s : State) : (answerFree s).freeIx = s.freeIx + 1 := rfl

/-! ### clearForStart (R191) -/

@[simp] theorem clearForStart_roundCount (s : State) : (clearForStart s).roundCount = s.roundCount := rfl
@[simp] theorem clearForStart_iterCount (s : State) : (clearForStart s).iterCount = s.iterCount := rfl
@[simp] theorem clearForStart_key (s : State) : (clearForStart s).key = s.key := rfl
@[simp] theorem clearForStart_block (s : State) : (clearForStart s).block = s.block := rfl
@[simp] theorem clearForStart_result (s : State) : (clearForStart s).result = Four.fill 0x00000000#32 := rfl
@[simp] theorem clearForStart_busy (s : State) : (clearForStart s).busy = s.busy := rfl
@[simp] theorem clearForStart_done (s : State) : (clearForStart s).done = false := rfl
@[simp] theorem clearForStart_errRounds (s : State) : (clearForStart s).errRounds = s.errRounds := rfl
@[simp] theorem clearForStart_errIters (s : State) : (clearForStart s).errIters = s.errIters := rfl
@[simp] theorem clearForStart_w (s : State) : (clearForStart s).w = s.w := rfl
@[simp] theorem clearForStart_k (s : State) : (clearForStart s).k = s.k := rfl
@[simp] theorem clearForStart_p (s : State) : (clearForStart s).p = s.p := rfl
@[simp] theorem clearForStart_cursor (s : State) : (clearForStart s).cursor = s.cursor := rfl
@[simp] theorem clearForStart_iter (s : State) : (clearForStart s).iter = s.iter := rfl
@[simp] theorem clearForStart_round (s : State) : (clearForStart s).round = s.round := rfl
@[simp] theorem clearForStart_cs (s : State) : (clearForStart s).cs = s.cs := rfl
@[simp] theorem clearForStart_busRdata (s : State) : (clearForStart s).busRdata = s.busRdata := rfl
@[simp] theorem clearForStart_turns (s : State) : (clearForStart s).turns = s.turns := rfl
@[simp] theorem clearForStart_freeIx (s : State) : (clearForStart s).freeIx = s.freeIx := rfl

/-! ### acceptStart (R191) -/

@[simp] theorem acceptStart_roundCount (s : State) : (acceptStart s).roundCount = s.roundCount := rfl
@[simp] theorem acceptStart_iterCount (s : State) : (acceptStart s).iterCount = s.iterCount := rfl
@[simp] theorem acceptStart_key (s : State) : (acceptStart s).key = s.key := rfl
@[simp] theorem acceptStart_block (s : State) : (acceptStart s).block = s.block := rfl
@[simp] theorem acceptStart_result (s : State) : (acceptStart s).result = s.result := rfl
@[simp] theorem acceptStart_busy (s : State) : (acceptStart s).busy = true := rfl
@[simp] theorem acceptStart_done (s : State) : (acceptStart s).done = s.done := rfl
@[simp] theorem acceptStart_errRounds (s : State) : (acceptStart s).errRounds = false := rfl
@[simp] theorem acceptStart_errIters (s : State) : (acceptStart s).errIters = false := rfl
@[simp] theorem acceptStart_w (s : State) : (acceptStart s).w = s.w := rfl
@[simp] theorem acceptStart_k (s : State) : (acceptStart s).k = s.k := rfl
@[simp] theorem acceptStart_p (s : State) : (acceptStart s).p = s.p := rfl
@[simp] theorem acceptStart_cursor (s : State) : (acceptStart s).cursor = s.cursor := rfl
@[simp] theorem acceptStart_iter (s : State) : (acceptStart s).iter = s.iter := rfl
@[simp] theorem acceptStart_round (s : State) : (acceptStart s).round = s.round := rfl
@[simp] theorem acceptStart_cs (s : State) : (acceptStart s).cs = csLoad := rfl
@[simp] theorem acceptStart_busRdata (s : State) : (acceptStart s).busRdata = s.busRdata := rfl
@[simp] theorem acceptStart_turns (s : State) : (acceptStart s).turns = s.turns := rfl
@[simp] theorem acceptStart_freeIx (s : State) : (acceptStart s).freeIx = s.freeIx := rfl

/-! ### raiseConfigError (R220) -/

@[simp] theorem raiseConfigError_roundCount (r n : Bool) (s : State) : (raiseConfigError r n s).roundCount = s.roundCount := rfl
@[simp] theorem raiseConfigError_iterCount (r n : Bool) (s : State) : (raiseConfigError r n s).iterCount = s.iterCount := rfl
@[simp] theorem raiseConfigError_key (r n : Bool) (s : State) : (raiseConfigError r n s).key = s.key := rfl
@[simp] theorem raiseConfigError_block (r n : Bool) (s : State) : (raiseConfigError r n s).block = s.block := rfl
@[simp] theorem raiseConfigError_result (r n : Bool) (s : State) : (raiseConfigError r n s).result = s.result := rfl
@[simp] theorem raiseConfigError_busy (r n : Bool) (s : State) : (raiseConfigError r n s).busy = s.busy := rfl
@[simp] theorem raiseConfigError_done (r n : Bool) (s : State) : (raiseConfigError r n s).done = s.done := rfl
@[simp] theorem raiseConfigError_errRounds (r n : Bool) (s : State) : (raiseConfigError r n s).errRounds = r := rfl
@[simp] theorem raiseConfigError_errIters (r n : Bool) (s : State) : (raiseConfigError r n s).errIters = n := rfl
@[simp] theorem raiseConfigError_w (r n : Bool) (s : State) : (raiseConfigError r n s).w = s.w := rfl
@[simp] theorem raiseConfigError_k (r n : Bool) (s : State) : (raiseConfigError r n s).k = s.k := rfl
@[simp] theorem raiseConfigError_p (r n : Bool) (s : State) : (raiseConfigError r n s).p = s.p := rfl
@[simp] theorem raiseConfigError_cursor (r n : Bool) (s : State) : (raiseConfigError r n s).cursor = s.cursor := rfl
@[simp] theorem raiseConfigError_iter (r n : Bool) (s : State) : (raiseConfigError r n s).iter = s.iter := rfl
@[simp] theorem raiseConfigError_round (r n : Bool) (s : State) : (raiseConfigError r n s).round = s.round := rfl
@[simp] theorem raiseConfigError_cs (r n : Bool) (s : State) : (raiseConfigError r n s).cs = s.cs := rfl
@[simp] theorem raiseConfigError_busRdata (r n : Bool) (s : State) : (raiseConfigError r n s).busRdata = s.busRdata := rfl
@[simp] theorem raiseConfigError_turns (r n : Bool) (s : State) : (raiseConfigError r n s).turns = s.turns := rfl
@[simp] theorem raiseConfigError_freeIx (r n : Bool) (s : State) : (raiseConfigError r n s).freeIx = s.freeIx := rfl

/-! ### resetEngine (R240): the world's fields stay -/

@[simp] theorem resetEngine_turns (s : State) : (resetEngine s).turns = s.turns := rfl
@[simp] theorem resetEngine_freeIx (s : State) : (resetEngine s).freeIx = s.freeIx := rfl

/-- All the rest is the reset state's (R41). -/
theorem resetEngine_eq (s : State) :
    resetEngine s = { State.reset with turns := s.turns, freeIx := s.freeIx } := rfl

end Sys2Proof.Machine
end

