-- ==== Sys2Proof/Laws/Ops.lean ====
section
/-! SUPPORT. One lemma per shared operation: everything it can do. -/

namespace Sys2Proof.Machine

/-- A read transaction changes only the data on the bus (R84). -/
theorem busRead_eq (r : Reg) (s : State) : busRead r s = { s with busRdata := some (readReg r s) } := rfl

/-- The write of a configuration register, both cases (R193, R197 to R203). -/
theorem writeConfig_cases (r : Reg) (d : Word) (s : State) :
    (s.busy = true ∧ writeConfig r d s = answerWrite s) ∨
      (s.busy = false ∧ writeConfig r d s = storeReg r d (answerWrite s)) := by
  cases h : s.busy <;> simp [writeConfig, h]

/-- What a store into a register leaves alone, whatever the register: everything but the configuration registers. -/
theorem storeReg_frame (r : Reg) (d : Word) (s : State) :
    storeReg r d s =
      { s with
        roundCount := (storeReg r d s).roundCount
        iterCount := (storeReg r d s).iterCount
        key := (storeReg r d s).key
        block := (storeReg r d s).block } := by
  cases r <;> rfl

/-- A read/write register reads back what was stored (R21). -/
theorem readReg_storeReg_same (r : Reg) (d : Word) (s : State)
    (h : r = .roundCount ∨ r = .iterCount ∨ (∃ n, r = .key n) ∨ ∃ n, r = .block n) :
    readReg r (storeReg r d s) = d := by
  rcases h with rfl | rfl | ⟨n, rfl⟩ | ⟨n, rfl⟩ <;> simp [readReg, storeReg]

/-- A store leaves every other register's reading alone. -/
theorem readReg_storeReg_ne (r r' : Reg) (d : Word) (s : State) (h : r' ≠ r) :
    readReg r' (storeReg r d s) = readReg r' s := by
  cases r <;> cases r' <;> simp_all [readReg, storeReg, statusWord, Four.get_set]

/-- A START acted on: rejected with the error recorded, or accepted (R191, R220). -/
theorem actOnStart_cases (s : State) :
    ((roundsInvalid s = true ∨ itersInvalid s = true) ∧
        actOnStart s = raiseConfigError (roundsInvalid s) (itersInvalid s) (clearForStart s)) ∨
      (roundsInvalid s = false ∧ itersInvalid s = false ∧ actOnStart s = acceptStart (clearForStart s)) := by
  cases hr : roundsInvalid s <;> cases hi : itersInvalid s <;> simp [actOnStart, hr, hi]

/-- The condition of the START check, as the rule writes it (R220). -/
theorem roundsInvalid_iff (s : State) : roundsInvalid s = true ↔ sint32 s.roundCount < 1 := by
  simp [roundsInvalid]

theorem itersInvalid_iff (s : State) : itersInvalid s = true ↔ sint32 s.iterCount < 1 := by
  simp [itersInvalid]

/-- A write of `CTRL`: acted on, or without effect (R191). -/
theorem writeCtrl_cases (d : Word) (s : State) :
    (d.getLsbD 0 = true ∧ s.busy = false ∧ writeCtrl d s = actOnStart (answerWrite s)) ∨
      ((d.getLsbD 0 = false ∨ s.busy = true) ∧ writeCtrl d s = answerWrite s) := by
  cases hd : d.getLsbD 0 <;> cases hb : s.busy <;> simp [writeCtrl, hb, -BitVec.getLsbD_eq_getElem, hd]

@[simp] theorem onNext_next (s : State) (f : State → State) : onNext (.next s) f = .next (f s) := rfl

/-- `onNext` answers a next state only through one of its argument. -/
theorem onNext_eq_next {o : Host.Outcome State Fault Refusal} {f : State → State} {t : State}
    (h : onNext o f = .next t) : ∃ u, o = .next u ∧ t = f u := by
  cases o with
  | next u => exact ⟨u, rfl, by simpa [onNext] using h.symm⟩
  | fault r => simp [onNext] at h
  | refused r => simp [onNext] at h

/-- The possible positive counts: `sint32` of a count that passes the check is its unsigned value (R24, R25). -/
theorem sint32_pos {v : Word} (h : 1 ≤ sint32 v) : sint32 v = v.toNat ∧ 1 ≤ v.toNat ∧ v.toNat < 2 ^ 31 := by
  have hlt := v.isLt
  have hcond := BitVec.toInt_eq_toNat_cond v
  change 1 ≤ v.toInt at h
  change v.toInt = _ ∧ _
  split at hcond <;> omega

end Sys2Proof.Machine
end

