-- ==== Sys2Proof/Laws/Step.lean ====
section
/-! SUPPORT. What one step can do, said once. -/

namespace Sys2Proof

/-- A `UOP` code that decodes is the code of its micro-operation (R85). -/
theorem encode_of_decodeUop {c : StateCode} {i : Instr} (h : decodeUop c = .ok i) : encode i = .uop c := by
  revert h
  unfold decodeUop
  repeat' split
  all_goals intro h
  all_goals first
    | (obtain rfl := Except.ok.inj h; subst_vars; rfl)
    | cases h

/-- The eleven legal codes (R85). -/
theorem StateCode.legal_cases (c : StateCode) (h : StateCode.legal c = true) :
    c = csIdle ∨ c = csLoad ∨ c = csChain ∨ c = csSnap ∨ c = csKinit ∨ c = csWhiten ∨ c = csSubshift ∨ c = csMixcol ∨
      c = csKexp ∨ c = csArk ∨ c = csFinish := by
  revert c; decide

/-- A legal `UOP` code decodes, a reserved one is refused by name (R85, R86). -/
theorem decodeUop_cases (c : StateCode) :
    (StateCode.legal c = true ∧ ∃ i, decodeUop c = .ok i) ∨
      (StateCode.legal c = false ∧ decodeUop c = .error (.reservedUopCode c)) := by
  by_cases h : StateCode.legal c = true
  · left
    refine ⟨h, ?_⟩
    rcases StateCode.legal_cases c h with rfl | rfl | rfl | rfl | rfl | rfl | rfl | rfl | rfl | rfl | rfl <;>
      exact ⟨_, rfl⟩
  · right
    refine ⟨by simpa using h, ?_⟩
    revert c; decide

namespace Machine

/-- A controller turn runs the micro-operation `cs` names, or faults on a reserved code (R36, R86). -/
theorem controllerTurn_cases (s : State) :
    (StateCode.legal s.cs = true ∧ ∃ i, encode i = .uop s.cs ∧ controllerTurn s = exec i s) ∨
      (StateCode.legal s.cs = false ∧ controllerTurn s = .fault (.reservedState s.cs)) := by
  rcases decodeUop_cases s.cs with ⟨hl, i, hi⟩ | ⟨hl, he⟩
  · exact .inl ⟨hl, i, encode_of_decodeUop hi, by simp [controllerTurn, decode, hi]⟩
  · exact .inr ⟨hl, by simp [controllerTurn, decode, he]⟩

/-- A bus cycle that answers a next state: no transaction, a transaction, or a write with a free read value (R84). -/
theorem performCycle_cases {c : BusCycle} {s t : State} (h : performCycle c s = .next t) :
    (c.we = false ∧ c.re = false ∧ t = s) ∨
      (c.we ≠ c.re ∧ exec (decodeBus (busWord c)) s = .next t) ∨
      (c.we = true ∧ c.re = true ∧ ∃ u, exec (decodeBus (busWord c)) s = .next u ∧ t = answerFree u) := by
  unfold performCycle at h
  split at h
  · next hw hr => exact .inl ⟨hw, hr, by cases h; rfl⟩
  · next hw hr => exact .inr (.inl ⟨by simp [hw, hr], h⟩)
  · next hw hr => exact .inr (.inl ⟨by simp [hw, hr], h⟩)
  · next hw hr => exact .inr (.inr ⟨hw, hr, onNext_eq_next h⟩)

/-- Everything a step that answers a next state has done: a reset, a bus cycle, or a micro-operation. -/
theorem step_cases {s t : State} (h : step s = .next t) :
    (∃ c rest, s.turns = .host c :: rest ∧ c.rstN = false ∧ t = resetEngine { s with turns := rest }) ∨
      (∃ c rest, s.turns = .host c :: rest ∧ c.rstN = true ∧ StateCode.legal s.cs = true ∧
        performCycle c { s with turns := rest } = .next t) ∨
      (∃ i, (s.turns = [] ∨ ∃ rest, s.turns = .controller :: rest) ∧ encode i = .uop s.cs ∧
        exec i { s with turns := s.turns.tail } = .next t) := by
  unfold step takeTurn at h
  split at h
  · next hs =>
    rcases controllerTurn_cases s with ⟨_, i, hi, he⟩ | ⟨_, he⟩
    · refine .inr (.inr ⟨i, .inl hs, hi, ?_⟩)
      have : { s with turns := s.turns.tail } = s := by cases s; simp_all
      rw [this, ← he, h]
    · rw [he] at h; cases h
  · next rest hs =>
    rcases controllerTurn_cases { s with turns := rest } with ⟨_, i, hi, he⟩ | ⟨_, he⟩
    · exact .inr (.inr ⟨i, .inr ⟨rest, hs⟩, hi, by rw [hs, List.tail_cons, ← he, h]⟩)
    · rw [he] at h; cases h
  · next c rest hs =>
    unfold hostTurn at h
    split at h
    · next hr =>
      split at h
      · next hl => exact .inr (.inl ⟨c, rest, hs, hr, hl, h⟩)
      · cases h
    · next hr => exact .inl ⟨c, rest, hs, by simpa using hr, by cases h; rfl⟩

end Machine

end Sys2Proof
end

