-- ==== Sys2Proof/Laws/HostScript.lean ====
section
/-! SUPPORT. What the operations of a host-script line can do, said once. -/

namespace Sys2Proof.Machine

@[simp] theorem andThen_next {α β : Type} (x : α) (k : α → Host.Outcome β Fault Refusal) :
    andThen (.next x) k = k x := rfl

/-- A next state comes only through one of each part. -/
theorem andThen_eq_next {α β : Type} {o : Host.Outcome α Fault Refusal} {k : α → Host.Outcome β Fault Refusal} {y : β} :
    andThen o k = .next y ↔ ∃ x, o = .next x ∧ k x = .next y := by
  cases o <;> simp [andThen]

@[simp] theorem advance_zero (s : State) : advance 0 s = .next s := rfl

theorem advance_succ (n : Nat) (s : State) : advance (n + 1) s = andThen (controllerTurn s) (advance n) := rfl

/-- A micro-operation leaves a legal code in `cs` (R171). -/
theorem exec_uop_legal {i : Instr} {s t : State} (hi : encode i = .uop s.cs) (h : exec i s = .next t) :
    StateCode.legal t.cs = true := by
  cases i <;> simp only [encode, encodeRead, encodeWrite, reduceCtorEq, Encoded.uop.injEq] at hi
  case idle => cases h; rw [← hi]; rfl
  case ark =>
    simp only [exec, execArk] at h
    split at h
    · cases h; rfl
    · split at h <;> cases h <;> rfl
  case subshift => cases h; dsimp only; split <;> rfl
  all_goals cases h; rfl

/-- Controller turns from a legal code complete and leave a legal code (R85, R86). -/
theorem advance_legal (n : Nat) (s : State) (hs : StateCode.legal s.cs = true) :
    ∃ t, advance n s = .next t ∧ StateCode.legal t.cs = true := by
  induction n generalizing s with
  | zero => exact ⟨s, rfl, hs⟩
  | succ n ih =>
    rcases controllerTurn_cases s with ⟨-, i, hi, he⟩ | ⟨hl, -⟩
    · obtain ⟨u, hu⟩ : ∃ u, exec i s = .next u := by
        cases i <;> first | exact ⟨_, rfl⟩ | (simp only [exec, execArk]; (repeat' split) <;> exact ⟨_, rfl⟩)
      obtain ⟨t, ht, hl⟩ := ih u (exec_uop_legal hi hu)
      exact ⟨t, by rw [advance_succ, he, hu, andThen_next, ht], hl⟩
    · rw [hs] at hl; cases hl

/-- Every read transaction is the same operation on its register (R84, R82). -/
theorem exec_readInstr (r : Reg) (s : State) : exec (readInstr r) s = .next (busRead r s) := by
  cases r <;> rfl

/-- A read's encoding is that of its register. -/
theorem encode_readInstr (r : Reg) : encode (readInstr r) = encodeRead r := by
  cases r <;> rfl

/-- A read the host performs returns its register and changes nothing else (R84). -/
theorem transact_readInstr (r : Reg) (s : State) (hs : StateCode.legal s.cs = true) :
    transact (readInstr r) s = .next (busRead r s) := by
  rw [← exec_readInstr, transact, encode_readInstr]
  simp [encodeRead, hostTurn, hs, performCycle, cycleOfWord, busWord, decodeBus]

/-- What one transaction of a line does: the controller's turns, the transaction, the rest, in that order. -/
theorem issueThen_eq_next {gap : Nat} {i : Instr} {s : State} {rest : State → Host.Outcome LineRun Fault Refusal}
    {r : LineRun} :
    issueThen gap i s rest = .next r ↔
      ∃ t u q, advance gap s = .next t ∧ transact i t = .next u ∧ rest u = .next q ∧
        r = { q with issued := i :: q.issued } := by
  simp only [issueThen, andThen_eq_next, Host.Outcome.next.injEq]
  constructor
  · rintro ⟨t, ht, u, hu, q, hq, rfl⟩; exact ⟨t, u, q, ht, hu, hq, rfl⟩
  · rintro ⟨t, u, q, ht, hu, hq, rfl⟩; exact ⟨t, ht, u, hu, q, hq, rfl⟩

/-- One turn of the loop of `POLL` on a register: the read after `gap` controller turns ends it, or it goes on (R89). -/
theorem runLoop_read (reg : Reg) (mask value : Word) (gap : Nat) (gaps : List Nat) (s : State)
    (hs : StateCode.legal s.cs = true) :
    ∃ t, advance gap s = .next t ∧ StateCode.legal t.cs = true ∧
      runLoop (readInstr reg) mask value (gap :: gaps) s =
        andThen
          (if pollEnds mask value (readReg reg t) then .next ⟨busRead reg t, [], true⟩
            else runLoop (readInstr reg) mask value gaps (busRead reg t))
          fun q => .next { q with issued := readInstr reg :: q.issued } := by
  obtain ⟨t, ht, hl⟩ := advance_legal gap s hs
  refine ⟨t, ht, hl, ?_⟩
  simp only [runLoop, issueThen, ht, andThen_next, transact_readInstr reg t hl, busRead, answerRead_busRdata,
    Option.any_some]
  rfl

end Sys2Proof.Machine
end

