-- ==== Sys2Proof/Laws/PerInstr.lean ====
section
/-! SUPPORT. Per instruction: its encoding lies in the row of spec/opcode_table.json it stands for, whatever its operands
are. -/

namespace Sys2Proof.Laws.InTableRow

/-- The encoding of `i` is in the row of `i`. -/
def Statement (i : Instr) : Prop := (rowOf i).matches (encode i) = true

/-- The low 32 bits of a word are outside every mask of the `BUS` rows (R81). -/
theorem masked_data (we : Bool) (off : Offset) (d : Word) (mask : BitVec 39) (h : mask.extractLsb' 0 32 = 0#32) :
    busWordOf we off d &&& mask = busWordOf we off 0#32 &&& mask := by
  apply BitVec.eq_of_getLsbD_eq
  intro i hi
  rw [BitVec.getLsbD_and, BitVec.getLsbD_and, getLsbD_busWordOf, getLsbD_busWordOf]
  split
  · next hlow =>
    have hm := congrArg (fun v => BitVec.getLsbD v i) h
    simp only [BitVec.getLsbD_extractLsb', hlow, decide_true, Bool.true_and, Nat.zero_add, BitVec.getLsbD_zero] at hm
    simp [hm]
  · rfl

/-- A write's row does not depend on its data. -/
theorem write_matches (row : OpcodeRow) (r : Reg) (d : Word)
    (h : (BitVec.ofNat 39 row.mask).extractLsb' 0 32 = 0#32) (h0 : row.matches (encodeWrite r 0#32) = true) :
    row.matches (encodeWrite r d) = true := by
  simpa only [OpcodeRow.matches, encodeWrite, masked_data _ _ d _ h, masked_data _ _ 0#32 _ h] using h0

theorem rdCtrl : Statement .rdCtrl := by unfold Statement; decide
theorem wrCtrl (data : Word) : Statement (.wrCtrl data) :=
  write_matches (rowOf (.wrCtrl 0)) .ctrl data (by decide) (by decide)
theorem rdStatus : Statement .rdStatus := by unfold Statement; decide
theorem wrStatus (data : Word) : Statement (.wrStatus data) :=
  write_matches (rowOf (.wrStatus 0)) .status data (by decide) (by decide)
theorem rdRoundCount : Statement .rdRoundCount := by unfold Statement; decide
theorem wrRoundCount (data : Word) : Statement (.wrRoundCount data) :=
  write_matches (rowOf (.wrRoundCount 0)) .roundCount data (by decide) (by decide)
theorem rdIterCount : Statement .rdIterCount := by unfold Statement; decide
theorem wrIterCount (data : Word) : Statement (.wrIterCount data) :=
  write_matches (rowOf (.wrIterCount 0)) .iterCount data (by decide) (by decide)
theorem rdKey (n : Fin 4) : Statement (.rdKey n) := by unfold Statement; revert n; decide
theorem wrKey (n : Fin 4) (data : Word) : Statement (.wrKey n data) :=
  write_matches (rowOf (.wrKey 0 0)) (.key n) data (by decide) (by revert n; decide)
theorem rdBlock (n : Fin 4) : Statement (.rdBlock n) := by unfold Statement; revert n; decide
theorem wrBlock (n : Fin 4) (data : Word) : Statement (.wrBlock n data) :=
  write_matches (rowOf (.wrBlock 0 0)) (.block n) data (by decide) (by revert n; decide)
theorem rdResult (n : Fin 4) : Statement (.rdResult n) := by unfold Statement; revert n; decide
theorem wrResult (n : Fin 4) (data : Word) : Statement (.wrResult n data) :=
  write_matches (rowOf (.wrResult 0 0)) (.result n) data (by decide) (by revert n; decide)
theorem idle : Statement .idle := by unfold Statement; decide
theorem load : Statement .load := by unfold Statement; decide
theorem chain : Statement .chain := by unfold Statement; decide
theorem snap : Statement .snap := by unfold Statement; decide
theorem kinit : Statement .kinit := by unfold Statement; decide
theorem whiten : Statement .whiten := by unfold Statement; decide
theorem subshift : Statement .subshift := by unfold Statement; decide
theorem mixcol : Statement .mixcol := by unfold Statement; decide
theorem kexp : Statement .kexp := by unfold Statement; decide
theorem ark : Statement .ark := by unfold Statement; decide
theorem finish : Statement .finish := by unfold Statement; decide

end Sys2Proof.Laws.InTableRow
end

