-- ==== Sys2Proof/Tests/Slice0.lean ====
section
/-! SUPPORT. Tests: ill-formed terms the checks refuse, words written out from the encodings of 30_encoding.md, single
steps with the values of 95_test_vectors.md, and for every statement with hypotheses a witness that meets them. -/

open Sys2Proof Sys2Proof.Machine

namespace Sys2Proof.Tests

-- One theorem at a time: the kernel checks below would otherwise wait for one another, each on a thread of its own.
set_option Elab.async false

/-! ## Helpers -/

/-- A part of the next state of an outcome, none where it stops. -/
def after {α : Type} (o : Host.Outcome State Fault Refusal) (f : State → α) : Option α :=
  match o with
  | .next t => some (f t)
  | .fault _ => none
  | .refused _ => none

/-- An outcome that has a next state. -/
theorem next_of_after {o : Host.Outcome State Fault Refusal} {f : State → Bool} (h : after o f = some true) :
    ∃ t, o = .next t ∧ f t = true := by
  cases o with
  | next t => exact ⟨t, rfl, by simpa [after] using h⟩
  | fault _ => cases h
  | refused _ => cases h

/-- A block from its hex form, eight digits at a time (R11, R62). -/
def blk (a b c d : Word) : Block := unpack ⟨a, b, c, d⟩

/-- The key of E2 and the block of E2 (95_test_vectors.md section 1), configured with given counts. -/
def configured (rounds iters : Word) : State :=
  { State.reset with
    roundCount := rounds
    iterCount := iters
    key := ⟨0x00010203#32, 0x04050607#32, 0x08090A0B#32, 0x0C0D0E0F#32⟩
    block := ⟨0x00112233#32, 0x44556677#32, 0x8899AABB#32, 0xCCDDEEFF#32⟩ }

/-- The state an accepted START leaves. -/
def launched (rounds iters : Word) : State := { configured rounds iters with busy := true, cs := csLoad }

/-- The state of a run at controller state `cs`, for the micro-operation tests: `W`, `K`, `P` and the counters given. -/
def midRun (cs : StateCode) (w k p : Block) (cursor : BitVec 4) (iter round : Word) : State :=
  { launched 0x0000000A#32 0x00000002#32 with
    cs := cs, w := w, k := k, p := p, cursor := cursor, iter := iter, round := round }

/-- The state after `n` steps. -/
def stepped (n : Nat) (s : State) : State :=
  match Host.Core.run Sys2Proof.core n s with
  | .next t => t
  | .fault _ => s
  | .refused _ => s

/-- A finished run whose result is that of E2. -/
def finished : State :=
  { configured 0x0000000A#32 0x00000001#32 with
    done := true, result := ⟨0x69C4E0D8#32, 0x6A7B0430#32, 0xD8CDB780#32, 0x70B4C55A#32⟩ }

/-- A bus cycle out of reset. -/
def cycle (we re : Bool) (addr : Offset) (wdata : Word) : BusCycle := ⟨true, we, re, addr, wdata⟩

/-- A cycle with the reset pin at 0. -/
def resetCycle : BusCycle := ⟨false, true, false, 0x10#6, 0xFFFFFFFF#32⟩

/-! ## Well-formedness: one ill-formed term for each check (R86, R88, R89) -/

theorem test_wf_refuses_reserved_code : Encoded.wf (.uop 0xB#4) = false := by decide
theorem test_wf_refuses_last_reserved_code : StateCode.legal 0xF#4 = false := by decide
theorem test_wf_takes_every_bus_word : Encoded.wf (.bus 0x7FFFFFFFFF#39) = true := by decide
theorem test_wf_refuses_misaligned_offset : ScriptReg.wf (.offset 0x0A) = false := by decide
theorem test_wf_refuses_offset_past_window : ScriptReg.wf (.offset 0x40) = false := by decide
theorem test_wf_takes_last_offset : ScriptReg.wf (.offset 0x3C) = true := by decide
theorem test_wf_refuses_wide_constant : ScriptLine.wf (.wr (.name (.key 0)) 0x100000000) = false := by decide
theorem test_wf_refuses_write_offset : ScriptLine.wf (.wr (.offset 0x11) 0) = false := by decide
theorem test_wf_refuses_read_offset : (runLine (.rd (.offset 0x0A)) [0] State.reset).isNone = true := by decide
theorem test_wf_refuses_wide_expectation : ScriptLine.wf (.rdExpect (.name .status) 0x100000000) = false := by decide
theorem test_wf_refuses_33_digits :
    ScriptLine.wf (.wrblk .key 0x100000000000000000000000000000000) = false := by decide
theorem test_wf_refuses_wide_mask : ScriptLine.wf (.poll (.name .status) 0x100000000 0) = false := by decide
theorem test_wf_refuses_wide_value : ScriptLine.wf (.poll (.name .status) 1 0x100000000) = false := by decide
theorem test_wf_takes_largest_constant : ScriptLine.wf (.wr (.name (.key 0)) 0xFFFFFFFF) = true := by decide

/-! ## Decoding: for every constructor a word written out from R81, R83 (`WE`, `OFF`, `DATA`) or R85 -/

theorem test_decode_rdCtrl : decode (.bus (0b0#1 ++ 0b000000#6 ++ 0x00000000#32)) = .ok .rdCtrl := rfl
theorem test_decode_wrCtrl : decode (.bus (0b1#1 ++ 0b000000#6 ++ 0x00000001#32)) = .ok (.wrCtrl 0x00000001#32) := rfl
theorem test_decode_rdStatus : decode (.bus (0b0#1 ++ 0b000100#6 ++ 0x00000000#32)) = .ok .rdStatus := rfl
theorem test_decode_wrStatus :
    decode (.bus (0b1#1 ++ 0b000100#6 ++ 0xFFFFFFFF#32)) = .ok (.wrStatus 0xFFFFFFFF#32) := rfl
theorem test_decode_rdRoundCount : decode (.bus (0b0#1 ++ 0b001000#6 ++ 0x00000000#32)) = .ok .rdRoundCount := rfl
theorem test_decode_wrRoundCount :
    decode (.bus (0b1#1 ++ 0b001000#6 ++ 0x0000000A#32)) = .ok (.wrRoundCount 0x0000000A#32) := rfl
theorem test_decode_rdIterCount : decode (.bus (0b0#1 ++ 0b001100#6 ++ 0x00000000#32)) = .ok .rdIterCount := rfl
theorem test_decode_wrIterCount :
    decode (.bus (0b1#1 ++ 0b001100#6 ++ 0x00000001#32)) = .ok (.wrIterCount 0x00000001#32) := rfl
theorem test_decode_rdKey : decode (.bus (0b0#1 ++ 0b011100#6 ++ 0x00000000#32)) = .ok (.rdKey 3) := rfl
theorem test_decode_wrKey :
    decode (.bus (0b1#1 ++ 0b011000#6 ++ 0x08090A0B#32)) = .ok (.wrKey 2 0x08090A0B#32) := rfl
theorem test_decode_rdBlock : decode (.bus (0b0#1 ++ 0b100100#6 ++ 0x00000000#32)) = .ok (.rdBlock 1) := rfl
theorem test_decode_wrBlock :
    decode (.bus (0b1#1 ++ 0b101100#6 ++ 0xCCDDEEFF#32)) = .ok (.wrBlock 3 0xCCDDEEFF#32) := rfl
theorem test_decode_rdResult : decode (.bus (0b0#1 ++ 0b111000#6 ++ 0x00000000#32)) = .ok (.rdResult 2) := rfl
theorem test_decode_wrResult :
    decode (.bus (0b1#1 ++ 0b110000#6 ++ 0x12345678#32)) = .ok (.wrResult 0 0x12345678#32) := rfl
theorem test_decode_idle : decode (.uop 0b0000#4) = .ok .idle := rfl
theorem test_decode_load : decode (.uop 0b0001#4) = .ok .load := rfl
theorem test_decode_chain : decode (.uop 0b0010#4) = .ok .chain := rfl
theorem test_decode_snap : decode (.uop 0b0011#4) = .ok .snap := rfl
theorem test_decode_kinit : decode (.uop 0b0100#4) = .ok .kinit := rfl
theorem test_decode_whiten : decode (.uop 0b0101#4) = .ok .whiten := rfl
theorem test_decode_subshift : decode (.uop 0b0110#4) = .ok .subshift := rfl
theorem test_decode_mixcol : decode (.uop 0b0111#4) = .ok .mixcol := rfl
theorem test_decode_kexp : decode (.uop 0b1000#4) = .ok .kexp := rfl
theorem test_decode_ark : decode (.uop 0b1001#4) = .ok .ark := rfl
theorem test_decode_finish : decode (.uop 0b1010#4) = .ok .finish := rfl
theorem test_decode_reserved : decode (.uop 0b1011#4) = .error (.reservedUopCode 0b1011#4) := rfl

/-- The words of P1's lines 5 and 10 (95_test_vectors.md section 3), and a misaligned read: offset 0x0A reads
`ROUND_COUNT` (section 2.6). -/
theorem test_decode_script_words :
    decodeBus 0x5808090A0B#39 = .wrKey 2 0x08090A0B#32 ∧ decodeBus 0x6CCCDDEEFF#39 = .wrBlock 3 0xCCDDEEFF#32 ∧
      decodeBus 0x0A00000000#39 = .rdRoundCount := by decide

/-- A read's `DATA` is not examined (R83). -/
theorem test_decode_ignores_read_data : decodeBus 0x3FFFFFFFFF#39 = .rdResult 3 := by decide

/-- Table words: an operand in the high bits, the eleventh code, a reserved code, a word that does not fit. -/
theorem test_decode_table_words :
    decodeTableWord 40 0x4C00000003 = some (.wrIterCount 3#32) ∧ decodeTableWord 8 0xA = some .finish ∧
      decodeTableWord 8 0xC = none ∧ decodeTableWord 40 0x8000000000 = none := by decide

/-- The encodings of the transactions of a line that has no loop. -/
def issuedWords (line : ScriptLine) : List Encoded :=
  match expand line with
  | .issue is => is.map encode
  | .loop _ _ _ => []

/-- The encodings of P4's line 3 (95_test_vectors.md section 3). -/
theorem test_encode_wrblk_key :
    issuedWords (.wrblk .key 0x2b7e151628aed2a6abf7158809cf4f3c) =
      [.bus 0x502B7E1516#39, .bus 0x5428AED2A6#39, .bus 0x58ABF71588#39, .bus 0x5C09CF4F3C#39] := by decide

/-- The encodings of P3's lines 1 and 11 (95_test_vectors.md section 3). -/
theorem test_encode_script_lines :
    issuedWords .start = [.bus 0x4000000001#39] ∧
      issuedWords .rdblkResult =
        [.bus 0x3000000000#39, .bus 0x3400000000#39, .bus 0x3800000000#39, .bus 0x3C00000000#39] := by decide

/-- `WAIT` is the loop of `RD STATUS` until `BUSY` = 0 (R89). -/
theorem test_expand_wait : expand .wait = .loop .rdStatus 0x00000001#32 0x00000000#32 := by decide

/-- How many reads a line has made, whether it has ended, and what it read last. -/
def progress (o : Option (Host.Outcome LineRun Fault Refusal)) : Option (Nat × Bool × Option Word) :=
  match o with
  | some (.next r) => some (r.issued.length, r.ended, r.state.busRdata)
  | some (.fault _) => none
  | some (.refused _) => none
  | none => none

/-- `WAIT` in IDLE reads once; in a run of eight steps it ends with the first read after the eighth (P3, R175). -/
theorem test_wait :
    progress (runLine .wait [0, 0] finished) = some (1, true, some 0x00000002#32) ∧
      progress (runLine .wait [3, 4, 2, 9] (launched 1#32 1#32)) = some (3, true, some 0x00000002#32) ∧
      progress (runLine .wait [3, 4] (launched 1#32 1#32)) = some (2, false, some 0x00000001#32) := by decide +kernel

/-- A `POLL` whose condition never holds reads on; an ill-formed line is refused. -/
theorem test_poll :
    progress (runLine (.poll (.name .roundCount) 0xF 0x3) [0, 1, 0] finished) = some (3, false, some 0x0000000A#32) ∧
      progress (runLine (.poll (.offset 0x0A) 0xF 0xA) [0] finished) = none := by decide +kernel

/-! ## Bus transactions (95_test_vectors.md section 2.6) -/

theorem test_rdCtrl_zero : after (exec .rdCtrl finished) (·.busRdata) = some (some 0x00000000#32) := by decide

theorem test_wrCtrl_rejects_after_reset :
    after (exec (.wrCtrl 0x00000001#32) State.reset) (fun t => (statusWord t, t.cs)) =
      some (0x0000000C#32, 0x0#4) := by decide

/-- A negative round count, then the smallest valid counts. -/
theorem test_wrCtrl_checks_sign :
    after (exec (.wrCtrl 0x00000001#32) (configured 0x80000000#32 0x00000001#32)) (fun t => (statusWord t, t.cs)) =
        some (0x00000004#32, 0x0#4) ∧
      after (exec (.wrCtrl 0x00000001#32) (configured 0x00000001#32 0x00000001#32)) (fun t => (statusWord t, t.cs)) =
        some (0x00000001#32, 0x1#4) := by decide

theorem test_rdStatus_done : after (exec .rdStatus finished) (·.busRdata) = some (some 0x00000002#32) := by decide

theorem test_wrStatus_no_effect : after (exec (.wrStatus 0xFFFFFFFF#32) finished) statusWord = some 0x00000002#32 := by
  decide

theorem test_rdRoundCount : after (exec .rdRoundCount finished) (·.busRdata) = some (some 0x0000000A#32) := by decide

/-- Stored whatever its value; ignored during a run. -/
theorem test_wrRoundCount :
    after (exec (.wrRoundCount 0xFFFFFFFF#32) finished) (·.roundCount) = some 0xFFFFFFFF#32 ∧
      after (exec (.wrRoundCount 0xFFFFFFFF#32) (launched 2#32 2#32)) (·.roundCount) = some 2#32 := by decide

theorem test_rdIterCount : after (exec .rdIterCount finished) (·.busRdata) = some (some 0x00000001#32) := by decide

theorem test_wrIterCount :
    after (exec (.wrIterCount 0x00000003#32) finished) (fun t => (t.iterCount, t.roundCount)) =
      some (0x00000003#32, 0x0000000A#32) := by decide

theorem test_rdKey : after (exec (.rdKey 1) finished) (·.busRdata) = some (some 0x04050607#32) := by decide

theorem test_wrKey :
    after (exec (.wrKey 0 0xFFFFFFFF#32) finished) (·.key) =
        some ⟨0xFFFFFFFF#32, 0x04050607#32, 0x08090A0B#32, 0x0C0D0E0F#32⟩ ∧
      after (exec (.wrKey 0 0xFFFFFFFF#32) (launched 2#32 2#32)) (fun t => t.key.e0) = some 0x00010203#32 := by decide

theorem test_rdBlock : after (exec (.rdBlock 2) finished) (·.busRdata) = some (some 0x8899AABB#32) := by decide

/-- Byte number 5 of the block is row 1 of column 1 (R11, R62). -/
theorem test_wrBlock :
    after (exec (.wrBlock 1 0x5A69788F#32) finished) (fun t => (blockByte (blockB t) 5, t.block.e0)) =
      some (0x69#8, 0x00112233#32) := by decide

theorem test_rdResult : after (exec (.rdResult 3) finished) (·.busRdata) = some (some 0x70B4C55A#32) := by decide

theorem test_wrResult_no_effect :
    after (exec (.wrResult 0 0x12345678#32) finished) (fun t => t.result.e0) = some 0x69C4E0D8#32 := by decide

/-! ## Micro-operations (95_test_vectors.md sections 2.3 to 2.5: round 1 of E2, and its chaining) -/

theorem test_idle : after (exec .idle finished) (fun t => decide (t = finished)) = some true := by decide

theorem test_load :
    after (exec .load (launched 0xA#32 1#32)) (fun t => (t.w, t.iter, t.cs)) =
      some (blk 0x00112233 0x44556677 0x8899AABB 0xCCDDEEFF, 1#32, 0x3#4) := by decide

theorem test_chain :
    after (exec .chain (midRun csChain (blk 0x69C4E0D8 0x6A7B0430 0xD8CDB780 0x70B4C55A) Block.zero
        (blk 0x00112233 0x44556677 0x8899AABB 0xCCDDEEFF) 0 2 10)) (fun t => (t.w, t.cs)) =
      some (blk 0x69D5C2EB 0x2E2E6247 0x50541D3B 0xBC692BA5, 0x3#4) := by decide

theorem test_snap :
    after (exec .snap (midRun csSnap (blk 1 2 3 4) Block.zero Block.zero 0 1 0)) (fun t => (t.p, t.w, t.cs)) =
      some (blk 1 2 3 4, blk 1 2 3 4, 0x4#4) := by decide

theorem test_kinit :
    after (exec .kinit (midRun csKinit Block.zero Block.zero Block.zero 7 1 9))
        (fun t => (t.k, t.cursor, t.round, t.cs)) =
      some (blk 0x00010203 0x04050607 0x08090A0B 0x0C0D0E0F, 0#4, 0#32, 0x5#4) := by decide

theorem test_whiten :
    after (exec .whiten (midRun csWhiten (blk 0x00112233 0x44556677 0x8899AABB 0xCCDDEEFF)
        (blk 0x00010203 0x04050607 0x08090A0B 0x0C0D0E0F) Block.zero 0 1 0)) (fun t => (t.w, t.round, t.cs)) =
      some (blk 0x00102030 0x40506070 0x8090A0B0 0xC0D0E0F0, 1#32, 0x6#4) := by decide

theorem test_subshift :
    after (exec .subshift (midRun csSubshift (blk 0x00102030 0x40506070 0x8090A0B0 0xC0D0E0F0)
        Block.zero Block.zero 0 1 1)) (fun t => (t.w, t.cs)) =
      some (blk 0x6353E08C 0x0960E104 0xCD70B751 0xBACAD0E7, 0x7#4) := by decide +kernel

/-- The final round goes on to KEXP: round 10 of E2. -/
theorem test_subshift_final :
    after (exec .subshift (midRun csSubshift (blk 0xBD6E7C3D 0xF2B5779E 0x0B61216E 0x8B10B689)
        Block.zero Block.zero 9 1 10)) (fun t => (t.w, t.cs)) =
      some (blk 0x7AD5FDA7 0x89EF4E27 0x2BCA100B 0x3D9FF59F, 0x8#4) := by decide +kernel

theorem test_mixcol :
    after (exec .mixcol (midRun csMixcol (blk 0x6353E08C 0x0960E104 0xCD70B751 0xBACAD0E7)
        Block.zero Block.zero 0 1 1)) (fun t => (t.w, t.cs)) =
      some (blk 0x5F726415 0x57F5BC92 0xF7BE3B29 0x1DB9F91A, 0x8#4) := by decide +kernel

theorem test_kexp :
    after (exec .kexp (midRun csKexp Block.zero (blk 0x00010203 0x04050607 0x08090A0B 0x0C0D0E0F)
        Block.zero 0 1 1)) (fun t => (t.k, t.cursor, t.cs)) =
      some (blk 0xD6AA74FD 0xD2AF72FA 0xDAA678F1 0xD6AB76FE, 1#4, 0x9#4) := by decide +kernel

/-- The cursor wraps: round key 10 of the second key of section 2.4. -/
theorem test_kexp_wraps :
    after (exec .kexp (midRun csKexp Block.zero (blk 0xAC7766F3 0x19FADC21 0x28D12941 0x575C006E)
        Block.zero 9 1 10)) (fun t => (t.k, t.cursor)) =
      some (blk 0xD014F9A8 0xC9EE2589 0xE13F0CC8 0xB6630CA6, 0#4) := by decide +kernel

theorem test_ark :
    after (exec .ark (midRun csArk (blk 0x5F726415 0x57F5BC92 0xF7BE3B29 0x1DB9F91A)
        (blk 0xD6AA74FD 0xD2AF72FA 0xDAA678F1 0xD6AB76FE) Block.zero 1 1 1)) (fun t => (t.w, t.round, t.cs)) =
      some (blk 0x89D810E8 0x855ACE68 0x2D1843D8 0xCB128FE4, 2#32, 0x6#4) := by decide

/-- The last round: another iteration, then none. -/
theorem test_ark_last_round :
    after (exec .ark (midRun csArk Block.zero Block.zero Block.zero 0 1 10)) (fun t => (t.iter, t.round, t.cs)) =
        some (2#32, 10#32, 0x2#4) ∧
      after (exec .ark (midRun csArk Block.zero Block.zero Block.zero 0 2 10)) (fun t => (t.iter, t.round, t.cs)) =
        some (2#32, 10#32, 0xA#4) := by decide

theorem test_finish :
    after (exec .finish (midRun csFinish (blk 0x69C4E0D8 0x6A7B0430 0xD8CDB780 0x70B4C55A)
        Block.zero Block.zero 0 2 10)) (fun t => (t.result, statusWord t, t.cs)) =
      some (⟨0x69C4E0D8#32, 0x6A7B0430#32, 0xD8CDB780#32, 0x70B4C55A#32⟩, 0x00000002#32, 0x0#4) := by decide

/-! ## Datapath functions (95_test_vectors.md sections 2.1 to 2.4) -/

theorem test_xtime : xtime 0x57#8 = 0xAE#8 ∧ xtime 0x80#8 = 0x1B#8 ∧ xtime 0xFF#8 = 0xE5#8 ∧ xtime 0x8D#8 = 0x01#8 := by
  decide

theorem test_gmul3 : gmul3 0x57#8 = 0xF9#8 ∧ gmul3 0xFF#8 = 0x1A#8 := by decide

theorem test_sbox : sbox 0x00#8 = 0x63#8 ∧ sbox 0x53#8 = 0xED#8 ∧ sbox 0x52#8 = 0x00#8 ∧ sbox 0xFF#8 = 0x16#8 := by decide

theorem test_shiftRows :
    shiftRows (blk 0x00010203 0x04050607 0x08090A0B 0x0C0D0E0F) =
      blk 0x00050A0F 0x04090E03 0x080D0207 0x0C01060B := by decide

theorem test_mixColumn :
    mixColumn ⟨0xDB#8, 0x13#8, 0x53#8, 0x45#8⟩ = ⟨0x8E#8, 0x4D#8, 0xA1#8, 0xBC#8⟩ ∧
      mixColumn ⟨0x80#8, 0x00#8, 0x00#8, 0x00#8⟩ = ⟨0x1B#8, 0x80#8, 0x80#8, 0x9B#8⟩ := by decide

/-- R=1 with the all-zero key and block (95_test_vectors.md section 2.5). -/
theorem test_encrypt_one_round :
    encryptBlock Block.zero Block.zero 1 = blk 0x01000000 0x01000000 0x01000000 0x01000000 := by decide +kernel

theorem test_steps_of_a_run : runSteps 10 1 = 44 ∧ runSteps 1 1 = 8 ∧ runSteps 10 3 = 130 := by decide

/-! ## Witnesses: for every statement with hypotheses a state and operands that meet them, clause by clause -/

/-- The state entering the n-th controller step of a run with two rounds and two iterations: 0 LOAD, 5 MIXCOL, 7 ARK of
round 1, 8 SUBSHIFT of round 2, 10 ARK of round 2, 11 CHAIN, 21 the last ARK, 22 FINISH, 23 IDLE again (R175). -/
def runAt (n : Nat) : State := stepped n (launched 2#32 2#32)

theorem runAt_cs :
    ([0, 1, 2, 3, 4, 5, 6, 7, 8, 9, 10, 11].map fun n => (runAt n).cs) =
        [csLoad, csSnap, csKinit, csWhiten, csSubshift, csMixcol, csKexp, csArk, csSubshift, csKexp, csArk, csChain] ∧
      (runAt 22).cs = csFinish ∧ (runAt 23).cs = csIdle := by decide +kernel

theorem witness_inv_configured : Inv (configured 2#32 2#32) := by constructor <;> decide +kernel
theorem witness_inv_load : Inv (runAt 0) := by constructor <;> decide +kernel
theorem witness_inv_whiten : Inv (runAt 3) := by constructor <;> decide +kernel
theorem witness_inv_mixcol : Inv (runAt 5) := by constructor <;> decide +kernel
theorem witness_inv_ark : Inv (runAt 10) := by constructor <;> decide +kernel
theorem witness_inv_chain : Inv (runAt 11) := by constructor <;> decide +kernel
theorem witness_inv_finish : Inv (runAt 22) := by constructor <;> decide +kernel
theorem witness_inv_done : Inv (runAt 23) := by constructor <;> decide +kernel

theorem witness_runInv_whiten : RunInv (runAt 3) := by constructor <;> decide +kernel
theorem witness_runInv_mixcol : RunInv (runAt 5) := by constructor <;> decide +kernel
theorem witness_runInv_ark : RunInv (runAt 10) := by constructor <;> decide +kernel
theorem witness_runInv_chain : RunInv (runAt 11) := by constructor <;> decide +kernel
theorem witness_runInv_finish : RunInv (runAt 22) := by constructor <;> decide +kernel

theorem witness_BusDecodingIsTotalAndUnambiguous :
    busWe 0x0800000000#39 = busWe 0x0BFFFFFFFF#39 ∧
      (0x0800000000#39).extractLsb' 34 4 = (0x0BFFFFFFFF#39).extractLsb' 34 4 ∧
      busWe 0x500000000A#39 = true ∧ busWe 0x530000000A#39 = true ∧
      (0x500000000A#39).extractLsb' 34 4 = (0x530000000A#39).extractLsb' 34 4 ∧
      busData 0x500000000A#39 = busData 0x530000000A#39 := by decide

theorem witness_BusOperandsAreTheirFields_column :
    decodeBus 0x1C00000000#39 = .rdKey 3 ∧ decodeBus 0x2000000000#39 = .rdBlock 0 ∧ decodeBus 0x3C00000000#39 = .rdResult 3 ∧
      decodeBus 0x5C00000001#39 = .wrKey 3 1#32 ∧ decodeBus 0x6000000001#39 = .wrBlock 0 1#32 ∧
      decodeBus 0x7C00000001#39 = .wrResult 3 1#32 := by decide

theorem witness_BusOperandsAreTheirFields_data :
    decodeBus 0x40FFFFFFFF#39 = .wrCtrl 0xFFFFFFFF#32 ∧ decodeBus 0x4480000000#39 = .wrStatus 0x80000000#32 ∧
      decodeBus 0x4800000000#39 = .wrRoundCount 0#32 ∧ decodeBus 0x4CFFFFFFFF#39 = .wrIterCount 0xFFFFFFFF#32 := by
  decide

theorem witness_UopCodesDecodeOrAreReserved :
    (0x0#4).toNat ≤ 0xA ∧ (0xA#4).toNat ≤ 0xA ∧ 0xB ≤ (0xB#4).toNat ∧ 0xB ≤ (0xF#4).toNat := by decide

theorem witness_MisalignedOffsetsFold :
    (ScriptReg.offset 0x00).wf = true ∧ (ScriptReg.offset 0x3C).wf = true := by decide

theorem witness_WriteBlockStoresTheHexForm :
    0xffffffffffffffffffffffffffffffff < 2 ^ 128 ∧ State.reset.busy = false ∧ finished.busy = false := by decide

/-- A read and a write on the pins, with one strobe each. -/
theorem witness_StepRunsHostTransaction :
    { State.reset with turns := [.host (cycle false true 0x04#6 0#32)] }.turns = .host (cycle false true 0x04#6 0#32) :: [] ∧
      (cycle false true 0x04#6 0#32).rstN = true ∧ (cycle false true 0x04#6 0#32).we ≠ (cycle false true 0x04#6 0#32).re ∧
      (cycle true false 0x00#6 1#32).we ≠ (cycle true false 0x00#6 1#32).re ∧
      StateCode.legal State.reset.cs = true ∧ StateCode.legal (runAt 22).cs = true := by decide +kernel

theorem witness_StepRunsMicroOperation :
    (runAt 5).turns = [] ∧ decode (.uop (runAt 5).cs) = .ok .mixcol ∧
      { runAt 5 with turns := [.controller] }.turns.head? = some .controller :=
  ⟨by decide +kernel, by rfl, rfl⟩

theorem witness_FetchedWordRuns :
    StateCode.legal State.reset.cs = true ∧ decode (.uop 0xA#4) = .ok .finish := ⟨by decide, rfl⟩

/-- The strobe combinations of R84, one by one. -/
theorem witness_StrobesOfACycle :
    (cycle true false 0x10#6 0#32).rstN = true ∧ StateCode.legal (runAt 5).cs = true ∧
      ((cycle true false 0x10#6 0#32).we = true ∧ (cycle true false 0x10#6 0#32).re = false) ∧
      ((cycle false true 0x10#6 0#32).we = false ∧ (cycle false true 0x10#6 0#32).re = true) ∧
      ((cycle true true 0x10#6 0#32).we = true ∧ (cycle true true 0x10#6 0#32).re = true) ∧
      ((cycle false false 0x10#6 0#32).we = false ∧ (cycle false false 0x10#6 0#32).re = false) := by decide +kernel

theorem witness_ReservedControllerStateFaults :
    StateCode.legal { State.reset with cs := 0xB#4 }.cs = false ∧
      ∀ c rest, { State.reset with cs := 0xB#4 }.turns = .host c :: rest → c.rstN = true :=
  ⟨by decide, fun _ _ h => by cases h⟩

theorem witness_EveryInstructionCompletes : StateCode.legal (runAt 22).cs = true := by decide +kernel

/-- A reset in the middle of a run, with a strobe asserted. -/
theorem witness_ResetSetsEveryElement :
    { runAt 5 with turns := [.host resetCycle] }.turns = .host resetCycle :: [] ∧ resetCycle.rstN = false ∧
      after (step { runAt 5 with turns := [.host resetCycle] }) (fun t => decide (t = State.reset)) = some true := by
  decide +kernel

theorem witness_ReadsReturnTheRegister : Inv (runAt 5) ∧ (runAt 5).done = false :=
  ⟨witness_inv_mixcol, by decide +kernel⟩

theorem witness_CountWritesStoreData : State.reset.busy = false ∧ (runAt 5).busy = true := by decide +kernel

theorem witness_KeyAndBlockWritesSetAColumn : finished.busy = false ∧ (0 : Fin 4) ≠ 3 := by decide

/-- Acted on; ignored for its data; ignored for the run. -/
theorem witness_StartCommand :
    ((0xFFFFFFFF#32).getLsbD 0 = true ∧ finished.busy = false) ∧ (0xFFFFFFFE#32).getLsbD 0 = false ∧
      (runAt 22).busy = true := by decide +kernel

theorem witness_RejectedStart_rounds :
    Inv (configured 0xFFFFFFFF#32 0x7FFFFFFF#32) ∧ (1#32).getLsbD 0 = true ∧
      (configured 0xFFFFFFFF#32 0x7FFFFFFF#32).busy = false ∧ sint32 0xFFFFFFFF#32 < 1 ∧ 1 ≤ sint32 0x7FFFFFFF#32 :=
  ⟨by constructor <;> decide +kernel, by decide⟩

theorem witness_RejectedStart_iters :
    Inv (configured 0x00000001#32 0x80000000#32) ∧ (configured 0x00000001#32 0x80000000#32).busy = false ∧
      1 ≤ sint32 0x00000001#32 ∧ sint32 0x80000000#32 < 1 :=
  ⟨by constructor <;> decide +kernel, by decide⟩

theorem witness_RejectedStart_both :
    Inv State.reset ∧ State.reset.busy = false ∧ sint32 State.reset.roundCount < 1 ∧ sint32 State.reset.iterCount < 1 :=
  ⟨by constructor <;> decide +kernel, by decide⟩

theorem witness_RecoveryFromConfigError :
    State.reset.busy = false ∧ 1 ≤ sint32 0x00000001#32 ∧ 1 ≤ sint32 0x7FFFFFFF#32 := by decide

/-- A write of `KEY0` with other offsets about it, a write of `CTRL` with the first register it leaves, and both ends of
the read/write registers. -/
theorem witness_WindowWriteFrame :
    busWe 0x5000000001#39 = true ∧ after (exec (decodeBus 0x5000000001#39) State.reset) (fun _ => true) = some true ∧
      regOfOffset (busOff 0x5000000001#39) ≠ .ctrl ∧
      (0x14#6).extractLsb' 2 4 ≠ (busOff 0x5000000001#39).extractLsb' 2 4 ∧
      busWe 0x4000000001#39 = true ∧ regOfOffset (busOff 0x4000000001#39) = .ctrl ∧ regOfOffset 0x08#6 ≠ .status ∧
      (∀ n, regOfOffset 0x08#6 ≠ .result n) ∧ State.reset.busy = false ∧
      0x08 ≤ (busOff 0x4800000001#39).toNat ∧ (busOff 0x4800000001#39).toNat < 0x30 ∧
      0x08 ≤ (busOff 0x6F00000001#39).toNat ∧ (busOff 0x6F00000001#39).toNat < 0x30 := by decide

theorem witness_RepeatedTransactions :
    busWe 0x0400000000#39 = false ∧ after (exec (decodeBus 0x0400000000#39) finished) (fun _ => true) = some true ∧
      busWe 0x4800000001#39 = true ∧ regOfOffset (busOff 0x4800000001#39) ≠ .ctrl ∧
      after (exec (decodeBus 0x4800000001#39) finished) (fun _ => true) = some true := by decide

theorem witness_HostCannotReachTheDatapath : isBusInstr .rdCtrl = true ∧ isBusInstr (.wrResult 3 0#32) = true := by decide

/-- `BUSY` set by an accepted START and cleared by FINISH, which sets `DONE`; `DONE` cleared by a START. -/
theorem witness_StatusBits_busy_done :
    ((configured 2#32 2#32).busy = false ∧ after (exec (.wrCtrl 1#32) (configured 2#32 2#32)) (·.busy) = some true) ∧
      ((runAt 22).busy = true ∧ (runAt 22).done = false ∧
        after (exec .finish (runAt 22)) (fun t => (t.busy, t.done)) = some (false, true)) ∧
      (finished.done = true ∧ after (exec (.wrCtrl 1#32) finished) (·.done) = some false) := by decide +kernel

/-- The error bits set by a rejected START and cleared by an accepted one. -/
theorem witness_StatusBits_errors :
    (State.reset.errRounds = false ∧ State.reset.errIters = false ∧
      after (exec (.wrCtrl 1#32) State.reset) (fun t => (t.errRounds, t.errIters)) = some (true, true)) ∧
      after (exec (.wrCtrl 1#32) { configured 1#32 1#32 with errRounds := true, errIters := true })
        (fun t => (t.errRounds, t.errIters)) = some (false, false) := by decide

theorem witness_IdleTakesNoStep :
    finished.cs = csIdle ∧ finished.turns = [] ∧ { finished with turns := [.controller] }.turns.head? = some .controller ∧
      isBusInstr (.wrCtrl 1#32) = true ∧
      after (exec (.wrCtrl 1#32) finished) (fun t => decide (t.cs ≠ csIdle)) = some true := by decide

/-- A round before the last and the last round; a boundary above it, which no run reaches. -/
theorem witness_SubshiftStep :
    (runAt 4).round.toNat < (runAt 4).roundCount.toNat ∧ (runAt 8).roundCount.toNat ≤ (runAt 8).round.toNat ∧
      (runAt 8).round = (runAt 8).roundCount := by decide +kernel

theorem witness_ArkStep :
    (runAt 7).round.toNat < (runAt 7).roundCount.toNat ∧
      ((runAt 10).roundCount.toNat ≤ (runAt 10).round.toNat ∧ (runAt 10).iter.toNat < (runAt 10).iterCount.toNat) ∧
      ((runAt 21).roundCount.toNat ≤ (runAt 21).round.toNat ∧ (runAt 21).iterCount.toNat ≤ (runAt 21).iter.toNat) := by
  decide +kernel

theorem witness_KexpStep : (1 : Fin 4) ≠ 0 ∧ (3 : Fin 4) ≠ 0 := by decide

/-- Every clause of the table has a state: the code in `cs`, its micro-operation, and a next state. -/
theorem witness_SuccessorTable :
    [(Instr.idle, 23), (.load, 0), (.chain, 11), (.snap, 1), (.kinit, 2), (.whiten, 3), (.subshift, 4), (.mixcol, 5),
        (.kexp, 6), (.ark, 7), (.finish, 22)].all
      (fun x => encode x.1 == .uop (runAt x.2).cs && after (exec x.1 (runAt x.2)) (fun _ => true) == some true) = true ∧
      isBusInstr (.wrCtrl 1#32) = true ∧
      after (exec (.wrCtrl 1#32) (configured 1#32 1#32)) (fun t => t.cs == csLoad) = some true := by
  decide +kernel

theorem witness_MicroOperationsLeaveHostRegisters :
    isBusInstr .ark = false ∧ Instr.ark ≠ .finish ∧ after (exec .ark (runAt 7)) (fun _ => true) = some true := by
  decide +kernel

theorem witness_PackingIsABijection :
    (3 : Fin 4).val = (15 : Fin 16).val / 4 ∧ (0 : Fin 4).val = (0 : Fin 16).val / 4 := by decide

theorem witness_ShiftRowsMovesByteNumbers :
    (11 : Fin 16).val = 4 * (((15 : Fin 16).val / 4 + (15 : Fin 16).val % 4) % 4) + (15 : Fin 16).val % 4 ∧
      (0 : Fin 16).val = 4 * (((0 : Fin 16).val / 4 + (0 : Fin 16).val % 4) % 4) + (0 : Fin 16).val % 4 := by decide

theorem witness_ReadStatusReturnsFlags : Inv finished ∧ 4 ≤ 31 := ⟨by constructor <;> decide +kernel, by decide⟩

/-- A step of the controller from each of some reachable states, and of the host. -/
theorem witness_StepKeepsControlInvariant :
    Inv (runAt 10) ∧ ∃ t, step (runAt 10) = .next t ∧ (decide (t.cs = csChain) = true) :=
  ⟨witness_inv_ark, next_of_after (by decide +kernel)⟩

theorem witness_StepKeepsDatapathInvariant :
    Inv (runAt 11) ∧ RunInv (runAt 11) ∧ ∃ t, step (runAt 11) = .next t ∧ (decide (t.cs = csSnap) = true) :=
  ⟨witness_inv_chain, witness_runInv_chain, next_of_after (by decide +kernel)⟩

theorem witness_ConfigurationIsFixedDuringARun :
    (runAt 5).busy = true ∧ (∀ c rest, (runAt 5).turns = .host c :: rest → c.rstN = true) ∧
      ∃ t, step (runAt 5) = .next t ∧ (decide (t.cs = csKexp) = true) := by
  have ht : (runAt 5).turns = [] := by decide +kernel
  refine ⟨by decide +kernel, ?_, next_of_after (by decide +kernel)⟩
  intro c rest h
  rw [ht] at h; cases h

theorem startAccepted_configured : startAccepted 1#32 (configured 1#32 1#32) := by
  unfold startAccepted; decide

/-- The interleaving of a run of eight steps: a read between them, one step short of the end and at the end. -/
theorem witness_RunUnderEveryInterleaving :
    Inv (configured 1#32 1#32) ∧ startAccepted 1#32 (configured 1#32 1#32) ∧
      noReset [.controller, .host (cycle false true 0x04#6 0#32)] = true ∧
      controllerTurns (.host (cycle true false 0x10#6 7#32) :: List.replicate 7 .controller) <
        runSteps (configured 1#32 1#32).roundCount.toNat (configured 1#32 1#32).iterCount.toNat ∧
      noReset (.host (cycle true false 0x10#6 7#32) :: List.replicate 7 .controller) = true ∧
      controllerTurns (.host (cycle true false 0x10#6 7#32) :: List.replicate 7 .controller) + 1 =
        runSteps (configured 1#32 1#32).roundCount.toNat (configured 1#32 1#32).iterCount.toNat :=
  ⟨by constructor <;> decide +kernel, startAccepted_configured, by decide⟩

/-- A state that differs from `configured 1 1` in everything but the configuration. -/
def otherwise : State :=
  { configured 1#32 1#32 with
    errIters := true, w := blk 1 2 3 4, k := blk 5 6 7 8, p := blk 9 1 2 3, cursor := 9#4, iter := 5#32, round := 6#32,
    busRdata := some 3#32, freeIx := 4 }

/-- Both runs of the statement exist, under different interleavings. -/
theorem witness_ResultDependsOnlyOnConfiguration :
    ∃ (a a' t t' : State), Inv (configured 1#32 1#32) ∧ Inv otherwise ∧ startAccepted 1#32 (configured 1#32 1#32) ∧
      startAccepted 3#32 otherwise ∧
      (otherwise.roundCount = 1#32 ∧ otherwise.iterCount = 1#32 ∧ otherwise.key = (configured 1#32 1#32).key ∧
        otherwise.block = (configured 1#32 1#32).block) ∧
      exec (.wrCtrl 1#32) (configured 1#32 1#32) = .next a ∧ exec (.wrCtrl 3#32) otherwise = .next a' ∧
      Host.Core.run Sys2Proof.core 8 { a with turns := List.replicate 7 .controller ++ [.controller] } = .next t ∧
      Host.Core.run Sys2Proof.core 9 { a' with
        turns := (.host (cycle true false 0x10#6 7#32) :: List.replicate 7 .controller) ++ [.controller] } = .next t' := by
  obtain ⟨t, ht, -⟩ := next_of_after (f := fun _ => true) (o := Host.Core.run Sys2Proof.core 8
    { writeCtrl 1#32 (configured 1#32 1#32) with turns := List.replicate 7 .controller ++ [.controller] })
    (by decide +kernel)
  obtain ⟨t', ht', -⟩ := next_of_after (f := fun _ => true) (o := Host.Core.run Sys2Proof.core 9
    { writeCtrl 3#32 otherwise with
      turns := (.host (cycle true false 0x10#6 7#32) :: List.replicate 7 .controller) ++ [.controller] })
    (by decide +kernel)
  exact ⟨_, _, t, t', by constructor <;> decide +kernel, by constructor <;> decide +kernel, startAccepted_configured,
    by unfold startAccepted; decide, by decide, rfl, rfl, ht, ht'⟩

theorem witness_BoundaryCounts :
    Inv (launched 1#32 1#32) ∧ (launched 1#32 1#32).roundCount.toNat = 1 ∧ (launched 1#32 1#32).busy = true ∧
      (launched 1#32 1#32).iterCount.toNat = 1 :=
  ⟨by constructor <;> decide +kernel, by decide⟩

theorem witness_EveryRunTerminates : Inv (runAt 0) ∧ (runAt 0).busy = true ∧ (runAt 0).turns = [] :=
  ⟨witness_inv_load, by decide +kernel⟩

theorem witness_PollingStatusSeesTheEnd :
    Inv (configured 1#32 1#32) ∧ startAccepted 1#32 (configured 1#32 1#32) ∧ 7 < runSteps 1 1 ∧ ¬ 8 < runSteps 1 1 :=
  ⟨by constructor <;> decide +kernel, startAccepted_configured, by decide⟩

/-- The largest mask and value, and a condition that holds at the first read. -/
theorem witness_PollReadsUntilTheConditionHolds :
    (ScriptLine.poll (.offset 0x3C) 4294967295 4294967295).wf = true ∧ StateCode.legal (runAt 22).cs = true ∧
      (ScriptLine.poll (.name .status) 1 0).wf = true ∧ StateCode.legal finished.cs = true := by decide +kernel

/-- An interleaving that gives the controller exactly the eight steps of the run, and one that gives seven. -/
theorem witness_WaitEndsWithTheResult :
    Inv (configured 1#32 1#32) ∧ startAccepted 1#32 (configured 1#32 1#32) ∧ runSteps 1 1 ≤ [3, 0, 5].sum ∧
      ¬ runSteps 1 1 ≤ [3, 0, 4].sum :=
  ⟨by constructor <;> decide +kernel, startAccepted_configured, by decide⟩

end Sys2Proof.Tests
end

/-! The host and the datapath (10_state.md R29): a bus transaction commutes with replacing the datapath, from which both
halves follow, that it keeps the datapath and that nothing of the datapath reaches the host. -/

namespace Sys2Proof.Machine

/-! ## A bus transaction as a read or a write of one register -/

/-- The 14 bus transactions are the reads and the writes of the registers (R83). -/
theorem readInstr_or_writeInstr_of_isBusInstr :
    ∀ {i : Instr}, isBusInstr i = true → (∃ r, i = readInstr r) ∨ ∃ r d, i = writeInstr d r
  | .rdCtrl, _ => .inl ⟨.ctrl, rfl⟩
  | .rdStatus, _ => .inl ⟨.status, rfl⟩
  | .rdRoundCount, _ => .inl ⟨.roundCount, rfl⟩
  | .rdIterCount, _ => .inl ⟨.iterCount, rfl⟩
  | .rdKey n, _ => .inl ⟨.key n, rfl⟩
  | .rdBlock n, _ => .inl ⟨.block n, rfl⟩
  | .rdResult n, _ => .inl ⟨.result n, rfl⟩
  | .wrCtrl d, _ => .inr ⟨.ctrl, d, rfl⟩
  | .wrStatus d, _ => .inr ⟨.status, d, rfl⟩
  | .wrRoundCount d, _ => .inr ⟨.roundCount, d, rfl⟩
  | .wrIterCount d, _ => .inr ⟨.iterCount, d, rfl⟩
  | .wrKey n d, _ => .inr ⟨.key n, d, rfl⟩
  | .wrBlock n d, _ => .inr ⟨.block n, d, rfl⟩
  | .wrResult n d, _ => .inr ⟨.result n, d, rfl⟩

/-- What a write transaction does, whatever the register: `CTRL` takes a command (R191), `STATUS` and `RESULTn` ignore
the data (R195, R205), the configuration registers take it (R197 to R203). -/
def busWrite (r : Reg) (d : Word) : State → State :=
  match r with
  | .ctrl => writeCtrl d
  | .status | .result _ => answerWrite
  | .roundCount | .iterCount | .key _ | .block _ => writeConfig r d

theorem exec_writeInstr (r : Reg) (d : Word) (s : State) : exec (writeInstr d r) s = .next (busWrite r d s) := by
  cases r <;> rfl

/-! ## The datapath as one value -/

/-- The state of 10_state.md section 3, which the host cannot reach. -/
structure Datapath where
  w : Block
  k : Block
  p : Block
  cursor : BitVec 4
  iter : Word
  round : Word

def State.datapath (s : State) : Datapath := ⟨s.w, s.k, s.p, s.cursor, s.iter, s.round⟩

def State.withDatapath (s : State) (D : Datapath) : State :=
  { s with w := D.w, k := D.k, p := D.p, cursor := D.cursor, iter := D.iter, round := D.round }

@[simp] theorem State.withDatapath_datapath (s : State) : s.withDatapath s.datapath = s := rfl

@[simp] theorem State.datapath_withDatapath (s : State) (D : Datapath) : (s.withDatapath D).datapath = D := rfl

/-! ## Operations that commute with replacing the datapath -/

/-- The operation neither reads nor writes the datapath (R29). -/
def IgnoresDatapath (f : State → State) : Prop :=
  ∀ (s : State) (D : Datapath), f (s.withDatapath D) = (f s).withDatapath D

/-- The frame follows from commuting: put the datapath that is there in its own place. -/
theorem IgnoresDatapath.datapath_eq {f : State → State} (hf : IgnoresDatapath f) (s : State) :
    (f s).datapath = s.datapath :=
  calc (f s).datapath
    _ = ((f s).withDatapath s.datapath).datapath := by rw [← hf, s.withDatapath_datapath]
    _ = s.datapath := (f s).datapath_withDatapath s.datapath

theorem IgnoresDatapath.comp {f g : State → State} (hg : IgnoresDatapath g) (hf : IgnoresDatapath f) :
    IgnoresDatapath fun s => g (f s) := fun s D =>
  (congrArg g (hf s D)).trans (hg (f s) D)

/-- A choice between two such operations is one, when the condition does not look at the datapath either. -/
theorem IgnoresDatapath.ite {c : State → Bool} {f g : State → State} (hc : ∀ s D, c (s.withDatapath D) = c s)
    (hf : IgnoresDatapath f) (hg : IgnoresDatapath g) : IgnoresDatapath fun s => if c s then f s else g s :=
  fun s D => by cases h : c s <;> simp [hc, h, hf s D, hg s D]

theorem ignoresDatapath_busRead (r : Reg) : IgnoresDatapath (busRead r) := fun _ _ => by
  cases r <;> rfl

theorem ignoresDatapath_answerWrite : IgnoresDatapath answerWrite := fun _ _ => rfl

theorem ignoresDatapath_storeReg (r : Reg) (d : Word) : IgnoresDatapath (storeReg r d) := fun _ _ => by
  cases r <;> rfl

theorem ignoresDatapath_writeConfig (r : Reg) (d : Word) : IgnoresDatapath (writeConfig r d) :=
  .ite (fun _ _ => rfl) ignoresDatapath_answerWrite ((ignoresDatapath_storeReg r d).comp ignoresDatapath_answerWrite)

/-- Both outcomes of the START check: it looks at the two counts only (R220). -/
theorem ignoresDatapath_actOnStart : IgnoresDatapath actOnStart :=
  .ite (fun _ _ => rfl) (fun _ _ => rfl) (fun _ _ => rfl)

theorem ignoresDatapath_writeCtrl (d : Word) : IgnoresDatapath (writeCtrl d) :=
  .ite (fun _ _ => rfl) (ignoresDatapath_actOnStart.comp ignoresDatapath_answerWrite) ignoresDatapath_answerWrite

theorem ignoresDatapath_busWrite (r : Reg) (d : Word) : IgnoresDatapath (busWrite r d) :=
  match r with
  | .ctrl => ignoresDatapath_writeCtrl d
  | .status | .result _ => ignoresDatapath_answerWrite
  | .roundCount | .iterCount | .key _ | .block _ => ignoresDatapath_writeConfig _ d

/-- Every bus transaction completes, by an operation that ignores the datapath (R29, R224). -/
theorem exec_of_isBusInstr {i : Instr} (hi : isBusInstr i = true) :
    ∃ f, IgnoresDatapath f ∧ ∀ s, exec i s = .next (f s) := by
  rcases readInstr_or_writeInstr_of_isBusInstr hi with ⟨r, rfl⟩ | ⟨r, d, rfl⟩
  · exact ⟨busRead r, ignoresDatapath_busRead r, exec_readInstr r⟩
  · exact ⟨busWrite r d, ignoresDatapath_busWrite r d, exec_writeInstr r d⟩

/-- Settles O27: a bus transaction commutes with replacing the datapath, and so keeps it too. -/
theorem hostCannotReachTheDatapath : Obligations.HostCannotReachTheDatapath := by
  intro i s w k p cursor iter round hi
  obtain ⟨f, hf, hexec⟩ := exec_of_isBusInstr hi
  have hframe : (f s).datapath = s.datapath := hf.datapath_eq s
  have hcommutes : f (s.withDatapath ⟨w, k, p, cursor, iter, round⟩) =
      (f s).withDatapath ⟨w, k, p, cursor, iter, round⟩ := hf s _
  refine ⟨f s, hexec s, ?_, ?_⟩
  · simpa [State.datapath] using hframe
  · exact (hexec _).trans (congrArg Host.Outcome.next hcommutes)

end Sys2Proof.Machine

/-! Packing (20_memory.md R62): a column and its register determine each other, byte by byte, and a block is its four
columns. -/

namespace Sys2Proof.Machine

/-! ## One column and its register -/

/-- Row `r` of a column is bits 31-8r : 24-8r of its register (R62): the appends to its right are dropped one by one. -/
theorem extractLsb'_packColumn (a : Column) (r : Fin 4) :
    (packColumn a).extractLsb' (24 - 8 * r.val) 8 = a.get r := by
  fin_cases r
  · exact (BitVec.extractLsb'_append_eq_of_le (by decide)).trans <|
      (BitVec.extractLsb'_append_eq_of_le (by decide)).trans BitVec.extractLsb'_append_eq_left
  · exact (BitVec.extractLsb'_append_eq_of_le (by decide)).trans <|
      (BitVec.extractLsb'_append_eq_of_le (by decide)).trans BitVec.extractLsb'_append_eq_right
  · exact (BitVec.extractLsb'_append_eq_of_le (by decide)).trans BitVec.extractLsb'_append_eq_right
  · exact BitVec.extractLsb'_append_eq_right

@[simp] theorem unpackColumn_get (v : Word) (r : Fin 4) :
    (unpackColumn v).get r = v.extractLsb' (24 - 8 * r.val) 8 := by
  simp [unpackColumn]

@[simp] theorem unpackColumn_packColumn (a : Column) : unpackColumn (packColumn a) = a :=
  Four.ext_get fun r => (unpackColumn_get _ r).trans (extractLsb'_packColumn a r)

/-- The four bytes of a word are adjacent, so their concatenation is the word. -/
@[simp] theorem packColumn_unpackColumn (v : Word) : packColumn (unpackColumn v) = v :=
  calc packColumn (unpackColumn v)
    _ = v.extractLsb' 24 8 ++ v.extractLsb' 16 8 ++ v.extractLsb' 8 8 ++ v.extractLsb' 0 8 := rfl
    _ = v.extractLsb' 0 32 := by
      rw [BitVec.extractLsb'_append_extractLsb'_eq_extractLsb' (rfl : 24 = 16 + 8),
        BitVec.extractLsb'_append_extractLsb'_eq_extractLsb' (rfl : 16 = 8 + 8),
        BitVec.extractLsb'_append_extractLsb'_eq_extractLsb' (rfl : 8 = 0 + 8)]
    _ = v := BitVec.extractLsb'_eq_self

/-! ## Blocks -/

@[simp] theorem unpack_pack (B : Block) : unpack (pack B) = B :=
  Four.ext_get fun c => by simp [unpack, pack_get]

@[simp] theorem pack_unpack (v : Four Word) : pack (unpack v) = v :=
  Four.ext_get fun c => by simp [unpack, pack_get]

/-- Byte number `k` of the block that four registers hold, as bits of register `k div 4` (R11, R62). -/
theorem blockByte_unpack (v : Four Word) {k : Fin 16} {c : Fin 4} (hc : c.val = k.val / 4) :
    blockByte (unpack v) k = (v.get c).extractLsb' (24 - 8 * (k.val % 4)) 8 := by
  obtain rfl : c = ⟨k.val / 4, Nat.div_lt_of_lt_mul k.isLt⟩ := Fin.ext hc
  exact unpack_cell v _ _

/-- Settles O43: a block is the unpacking of its packing, so its bytes are where `unpack` reads them. -/
theorem packingIsABijection : Obligations.PackingIsABijection := by
  refine ⟨unpack_pack, pack_unpack, fun B k c hc => ?_⟩
  have hbyte : blockByte B k = ((pack B).get c).extractLsb' (24 - 8 * (k.val % 4)) 8 := by
    simpa only [unpack_pack] using blockByte_unpack (pack B) hc
  rw [hbyte, BitVec.extractLsb'_toNat, Nat.shiftRight_eq_div_pow]

end Sys2Proof.Machine

/-! The rows of a `BUS` word (30_encoding.md R83): no row examines `DATA`, so a word's rows are those of its `WE` and
`OFF` with `DATA` zero, and these are 128 words. -/

namespace Sys2Proof

/-! ## `DATA` is not examined -/

/-- The mask of a `BUS` row lies above `DATA` (R81). -/
theorem busRow_mask_data : ∀ row ∈ opcodeTable, row.format = .bus →
    (BitVec.ofNat 39 row.mask).extractLsb' 0 32 = 0#32 := by
  decide

theorem matches_busWordOf_data (we : Bool) (off : Offset) (d : Word) (row : OpcodeRow) (hrow : row ∈ opcodeTable) :
    row.matches (.bus (busWordOf we off d)) = row.matches (.bus (busWordOf we off 0#32)) := by
  cases hf : row.format with
  | uop =>
    have hformat : (Format.uop == Format.bus) = false := rfl
    simp only [OpcodeRow.matches, hf, hformat, Bool.false_and]
  | bus =>
    have hmask := busRow_mask_data row hrow hf
    simp only [OpcodeRow.matches, Laws.InTableRow.masked_data we off d _ hmask]

/-- The operand of a write is not part of its row. -/
theorem rowOf_writeInstr_data (d : Word) (r : Reg) : rowOf (writeInstr d r) = rowOf (writeInstr 0#32 r) := by
  cases r <;> rfl

theorem rowOf_decodeBus_data (we : Bool) (off : Offset) (d : Word) :
    rowOf (decodeBus (busWordOf we off d)) = rowOf (decodeBus (busWordOf we off 0#32)) := by
  cases we with
  | false => rw [decodeBus_read, decodeBus_read]
  | true => rw [decodeBus_write, decodeBus_write, rowOf_writeInstr_data]

/-! ## The row of each `WE` and `OFF` -/

theorem filter_matches_busWordOf_zero : ∀ (we : Bool) (off : Offset),
    opcodeTable.filter (fun row => row.matches (.bus (busWordOf we off 0#32))) =
      [rowOf (decodeBus (busWordOf we off 0#32))] := by
  decide

/-- Exactly one row matches a `BUS` word, that of its instruction (R83). -/
theorem filter_matches_bus (w : BitVec 39) :
    opcodeTable.filter (fun row => row.matches (.bus w)) = [rowOf (decodeBus w)] := by
  rw [← busWordOf_fields w, List.filter_congr (matches_busWordOf_data _ _ _), filter_matches_busWordOf_zero,
    ← rowOf_decodeBus_data]

/-! ## The fields the decoder examines -/

/-- `OFF[5:2]` is bits 37:34 of the word (R81). -/
theorem extractLsb'_busOff (w : BitVec 39) : (busOff w).extractLsb' 2 4 = w.extractLsb' 34 4 := by
  apply BitVec.eq_of_getLsbD_eq
  intro i hi
  have hoff : 2 + i < 6 := by omega
  have hbit : 32 + (2 + i) = 34 + i := by omega
  simp only [busOff, BitVec.getLsbD_extractLsb', hoff, hbit, decide_true, Bool.true_and]

theorem decodeBus_congr {w w' : BitVec 39} (hwe : busWe w = busWe w')
    (hoff : w.extractLsb' 34 4 = w'.extractLsb' 34 4) (hdata : busWe w = true → busData w = busData w') :
    decodeBus w = decodeBus w' := by
  have hreg : regOfOffset (busOff w) = regOfOffset (busOff w') :=
    regOfOffset_congr (by rw [extractLsb'_busOff, extractLsb'_busOff, hoff])
  unfold decodeBus
  rw [← hwe, hreg]
  split
  · next hw => rw [hdata hw]
  · rfl

/-- Settles O3: the row does not depend on `DATA`, and the decoder reads `OFF` only through the register it selects. -/
theorem busDecodingIsTotalAndUnambiguous : Obligations.BusDecodingIsTotalAndUnambiguous :=
  ⟨filter_matches_bus, fun _ _ => decodeBus_congr⟩

end Sys2Proof

/-! One step of the key schedule (42_key_schedule.md R145), row by row of the new first column. -/

namespace Sys2Proof.Machine

/-- The cursor counts modulo `RCON_LEN` (R143): four bits hold every remainder. -/
theorem advanceCursor_toNat (c : BitVec 4) : (advanceCursor c).toNat = (c.toNat + 1) % Config.rconLen := by
  have hfits : (c.toNat + 1) % Config.rconLen < 2 ^ 4 :=
    (Nat.mod_lt _ (by decide : 0 < Config.rconLen)).trans (by decide)
  exact (BitVec.toNat_ofNat _ _).trans (Nat.mod_eq_of_lt hfits)

/-- Row 0 of the new first column takes the round constant (R143). -/
theorem deriveKey_cell_zero_zero (K : Block) (cur : BitVec 4) :
    (deriveKey K cur).cell 0 0 = K.cell 0 0 ^^^ (sbox (K.cell 1 3) ^^^ rcon cur) := by
  rw [deriveKey_cell_zero, rconXor_get, if_pos rfl, subWord_get, rotWord_get, zero_add]

/-- The other rows of the new first column take no round constant (R143). -/
theorem deriveKey_cell_zero_of_ne (K : Block) (cur : BitVec 4) {r : Fin 4} (hr : r ≠ 0) :
    (deriveKey K cur).cell r 0 = K.cell r 0 ^^^ sbox (K.cell (r + 1) 3) := by
  rw [deriveKey_cell_zero, rconXor_get, if_neg hr, subWord_get, rotWord_get]

/-- Settles O38: KEXP stores DeriveNext of the old key and cursor, whose bytes are those of the recurrence. -/
theorem kexpStep : Obligations.KexpStep := fun s =>
  ⟨{ s with k := deriveKey s.k s.cursor, cursor := advanceCursor s.cursor, cs := csArk }, rfl, rfl,
    advanceCursor_toNat s.cursor, deriveKey_cell_zero_zero s.k s.cursor,
    fun _ hr => deriveKey_cell_zero_of_ne s.k s.cursor hr, deriveKey_cell_succ s.k s.cursor⟩

end Sys2Proof.Machine

/-! Single steps of the controller (43_round_controller.md R161 to R172): the bytes of a register block, the counters'
increments and, for the two micro-operations that choose a successor, one equation per choice. -/

namespace Sys2Proof.Machine

/-! ## Bytes and counters as numbers -/

/-- A byte of a word, as the spec's rules on numbers write it (R62). -/
theorem extractLsb'_byte_toNat (v : Word) (n : Nat) : (v.extractLsb' n 8).toNat = v.toNat / 2 ^ n % 256 := by
  rw [BitVec.extractLsb'_toNat, Nat.shiftRight_eq_div_pow]

theorem unpack_cell_toNat (v : Four Word) (r c : Fin 4) :
    ((unpack v).cell r c).toNat = (v.get c).toNat / 2 ^ (24 - 8 * r.val) % 256 := by
  rw [unpack_cell, extractLsb'_byte_toNat]

theorem pack_get_byte_toNat (B : Block) (r c : Fin 4) :
    ((pack B).get c).toNat / 2 ^ (24 - 8 * r.val) % 256 = (B.cell r c).toNat := by
  rw [← unpack_cell_toNat, unpack_pack]

/-- A counter below a 32-bit count does not wrap (log 9). -/
theorem toNat_add_one_of_lt {v n : Word} (h : v.toNat < n.toNat) : (v + 1#32).toNat = v.toNat + 1 :=
  have hfits : v.toNat + 1 < 2 ^ 32 := (Nat.succ_le_of_lt h).trans_lt n.isLt
  BitVec.toNat_add_of_lt hfits

/-! ## The steps that choose no successor -/

/-- Settles O31: LOAD takes the unpacking of the `BLOCK` registers. -/
theorem loadStep : Obligations.LoadStep := fun s =>
  ⟨{ s with w := blockB s, iter := 1#32, cs := csSnap }, rfl, rfl, unpack_cell_toNat s.block⟩

/-- Settles O33: SNAP is this update by definition. -/
theorem snapStep : Obligations.SnapStep := fun _ => rfl

/-- Settles O34: KINIT takes the unpacking of the `KEY` registers. -/
theorem kinitStep : Obligations.KinitStep := fun s =>
  ⟨{ s with k := keyB s, cursor := 0x0#4, round := 0#32, cs := csWhiten }, rfl, rfl, unpack_cell_toNat s.key⟩

/-- Settles O35: WHITEN is AddRoundKey of `W` and `K`, whose bytes are the XORs. -/
theorem whitenStep : Obligations.WhitenStep := fun s =>
  ⟨{ s with w := addRoundKey s.w s.k, round := 1#32, cs := csSubshift }, rfl, rfl, addRoundKey_cell s.w s.k⟩

/-- Settles O40: FINISH packs `W`, and the bytes of a packing are those of the block. -/
theorem finishStep : Obligations.FinishStep := fun s =>
  ⟨{ s with result := pack s.w, done := true, busy := false, cs := csIdle }, rfl, rfl, pack_get_byte_toNat s.w⟩

/-! ## SUBSHIFT (R167) -/

/-- Settles O36: the comparison of R167 is the unsigned order of the two words. -/
theorem subshiftStep : Obligations.SubshiftStep := fun s =>
  ⟨{ s with w := subShift s.w, cs := if s.round < s.roundCount then csMixcol else csKexp }, rfl, rfl, subShift_cell s.w,
    fun hlt => if_pos (BitVec.lt_def.mpr hlt), fun hge => if_neg (BitVec.not_lt.mpr (BitVec.le_def.mpr hge))⟩

/-! ## ARK (R170) -/

theorem exec_ark_nextRound {s : State} (hround : s.round < s.roundCount) :
    exec .ark s = .next { s with w := addRoundKey s.w s.k, round := s.round + 1#32, cs := csSubshift } :=
  if_pos hround

theorem exec_ark_nextIteration {s : State} (hround : ¬ s.round < s.roundCount) (hiter : s.iter < s.iterCount) :
    exec .ark s = .next { s with w := addRoundKey s.w s.k, iter := s.iter + 1#32, cs := csChain } :=
  (if_neg hround).trans (if_pos hiter)

theorem exec_ark_finish {s : State} (hround : ¬ s.round < s.roundCount) (hiter : ¬ s.iter < s.iterCount) :
    exec .ark s = .next { s with w := addRoundKey s.w s.k, cs := csFinish } :=
  (if_neg hround).trans (if_neg hiter)

/-- Settles O39: in each of the three cases of R170 one clause speaks, and the other two are excluded by its premises. -/
theorem arkStep : Obligations.ArkStep := by
  intro s
  have hmix := addRoundKey_cell s.w s.k
  by_cases hround : s.round < s.roundCount
  · have hlt := BitVec.lt_def.mp hround
    exact ⟨_, exec_ark_nextRound hround, rfl, hmix, fun _ => ⟨toNat_add_one_of_lt hlt, rfl, rfl⟩,
      fun hge => absurd hlt hge.not_gt, fun hge => absurd hlt hge.not_gt⟩
  · have hroundGe : ¬ s.round.toNat < s.roundCount.toNat := fun h => hround (BitVec.lt_def.mpr h)
    by_cases hiter : s.iter < s.iterCount
    · have hlt := BitVec.lt_def.mp hiter
      exact ⟨_, exec_ark_nextIteration hround hiter, rfl, hmix, fun h => absurd h hroundGe,
        fun _ _ => ⟨toNat_add_one_of_lt hlt, rfl, rfl⟩, fun _ hge => absurd hlt hge.not_gt⟩
    · have hiterGe : ¬ s.iter.toNat < s.iterCount.toNat := fun h => hiter (BitVec.lt_def.mpr h)
      exact ⟨_, exec_ark_finish hround hiter, rfl, hmix, fun h => absurd h hroundGe, fun _ h => absurd h hiterGe,
        fun _ _ => ⟨rfl, rfl, rfl⟩⟩

end Sys2Proof.Machine

/-! The host interface (44_host_interface.md): what a write of `CTRL` does (R191), and what keeps the configuration
registers as they are while a run is in progress (R193). -/

namespace Sys2Proof.Machine

/-! ## Transactions without effect on the registers -/

/-- Settles O16: `RD CTRL` is the read of a register that reads as 0. -/
theorem readCtrlReturnsZero : Obligations.ReadCtrlReturnsZero := fun s => exec_readInstr .ctrl s

/-- Settles O21: a write of `STATUS` or `RESULTn` is the write transaction that drops its data. -/
theorem readOnlyRegistersIgnoreWrites : Obligations.ReadOnlyRegistersIgnoreWrites := fun s n d =>
  ⟨exec_writeInstr .status d s, exec_writeInstr (.result n) d s⟩

/-! ## START (R191) -/

theorem writeCtrl_of_start {d : Word} {s : State} (hd : d.getLsbD 0 = true) (hb : s.busy = false) :
    writeCtrl d s = actOnStart (answerWrite s) := by
  rcases writeCtrl_cases d s with ⟨-, -, he⟩ | ⟨hd' | hb', -⟩
  · exact he
  · rw [hd] at hd'; cases hd'
  · rw [hb] at hb'; cases hb'

theorem writeCtrl_of_ignored {d : Word} {s : State} (h : d.getLsbD 0 = false ∨ s.busy = true) :
    writeCtrl d s = answerWrite s := by
  rcases writeCtrl_cases d s with ⟨hd, hb, -⟩ | ⟨-, he⟩
  · rw [hd, hb] at h; simp at h
  · exact he

/-- Both counts pass the START check of R220. -/
def countsValid (s : State) : Prop := 1 ≤ sint32 s.roundCount ∧ 1 ≤ sint32 s.iterCount

theorem not_countsValid_iff (s : State) : ¬ countsValid s ↔ roundsInvalid s = true ∨ itersInvalid s = true := by
  rw [roundsInvalid_iff, itersInvalid_iff, countsValid, not_and_or, not_le, not_le]

theorem actOnStart_of_valid {s : State} (h : countsValid s) : actOnStart s = acceptStart (clearForStart s) := by
  rcases actOnStart_cases s with ⟨hbad, -⟩ | ⟨-, -, he⟩
  · exact absurd h ((not_countsValid_iff s).mpr hbad)
  · exact he

theorem actOnStart_of_not_valid {s : State} (h : ¬ countsValid s) :
    actOnStart s = raiseConfigError (roundsInvalid s) (itersInvalid s) (clearForStart s) := by
  rcases actOnStart_cases s with ⟨-, he⟩ | ⟨hr, hi, -⟩
  · exact he
  · have hbad := (not_countsValid_iff s).mp h
    rw [hr, hi] at hbad; simp at hbad

/-- Settles O22: `WR CTRL` is a START acted on or no effect, and a START acted on is accepted or rejected. -/
theorem startCommand : Obligations.StartCommand := by
  intro s d
  refine ⟨fun hd hb => ?_, fun h => congrArg Host.Outcome.next (writeCtrl_of_ignored h)⟩
  refine congrArg Host.Outcome.next ((writeCtrl_of_start hd hb).trans ?_)
  by_cases hv : 1 ≤ sint32 s.roundCount ∧ 1 ≤ sint32 s.iterCount
  · obtain ⟨hr, hi⟩ := hv
    rw [actOnStart_of_valid (s := answerWrite s) ⟨hr, hi⟩, decide_eq_false hr.not_gt, decide_eq_false hi.not_gt,
      decide_eq_true ⟨hr, hi⟩, if_pos ⟨hr, hi⟩]
    rfl
  · rw [actOnStart_of_not_valid (s := answerWrite s) hv, decide_eq_false hv, if_neg hv]
    simp only [raiseConfigError, clearForStart, answerWrite, hb]
    rfl

/-! ## The configuration registers -/

/-- The registers of 10_state.md R24 to R27, from which a run is computed. -/
structure Configuration where
  roundCount : Word
  iterCount : Word
  key : Four Word
  block : Four Word

def State.configuration (s : State) : Configuration := ⟨s.roundCount, s.iterCount, s.key, s.block⟩

@[simp] theorem answerWrite_configuration (s : State) : (answerWrite s).configuration = s.configuration := rfl

@[simp] theorem answerFree_configuration (s : State) : (answerFree s).configuration = s.configuration := rfl

@[simp] theorem busRead_configuration (r : Reg) (s : State) : (busRead r s).configuration = s.configuration := rfl

/-- While `BUSY` = 1 a write of any register is dropped (R191, R193, R195, R205). -/
theorem busWrite_of_busy (r : Reg) (d : Word) {s : State} (hb : s.busy = true) : busWrite r d s = answerWrite s :=
  match r with
  | .ctrl => writeCtrl_of_ignored (.inr hb)
  | .status | .result _ => rfl
  | .roundCount | .iterCount | .key _ | .block _ => if_pos hb

theorem exec_writeInstr_of_busy (r : Reg) (d : Word) {s : State} (hb : s.busy = true) :
    exec (writeInstr d r) s = .next (answerWrite s) := by
  rw [exec_writeInstr, busWrite_of_busy r d hb]

/-- While `BUSY` = 1 no bus transaction changes a configuration register (R193). -/
theorem exec_decodeBus_configuration_of_busy {w : BitVec 39} {s t : State} (hb : s.busy = true)
    (h : exec (decodeBus w) s = .next t) : t.configuration = s.configuration := by
  unfold decodeBus at h
  split at h
  · rw [exec_writeInstr_of_busy _ _ hb] at h
    cases h
    exact answerWrite_configuration s
  · rw [exec_readInstr] at h
    cases h
    exact busRead_configuration _ s

/-- No cycle of the bus does either, whatever its strobes (R84). -/
theorem performCycle_configuration_of_busy {c : BusCycle} {s t : State} (hb : s.busy = true)
    (h : performCycle c s = .next t) : t.configuration = s.configuration := by
  rcases performCycle_cases h with ⟨-, -, rfl⟩ | ⟨-, he⟩ | ⟨-, -, u, he, rfl⟩
  · rfl
  · exact exec_decodeBus_configuration_of_busy hb he
  · exact (answerFree_configuration u).trans (exec_decodeBus_configuration_of_busy hb he)

/-- No micro-operation writes a configuration register (R24 to R27). -/
theorem exec_uop_configuration {i : Instr} {c : StateCode} {s t : State} (hi : encode i = .uop c)
    (h : exec i s = .next t) : t.configuration = s.configuration := by
  cases i <;> simp only [encode, encodeRead, encodeWrite, reduceCtorEq] at hi
  case ark =>
    by_cases hround : s.round < s.roundCount
    · rw [exec_ark_nextRound hround] at h; cases h; rfl
    · by_cases hiter : s.iter < s.iterCount
      · rw [exec_ark_nextIteration hround hiter] at h; cases h; rfl
      · rw [exec_ark_finish hround hiter] at h; cases h; rfl
  all_goals cases h; rfl

/-- While `BUSY` = 1 only a reset changes the configuration (R193, R73). -/
theorem step_configuration_of_busy {s t : State} (hb : s.busy = true)
    (hreset : ∀ c rest, s.turns = .host c :: rest → c.rstN = true) (h : step s = .next t) :
    t.configuration = s.configuration := by
  rcases step_cases h with ⟨c, rest, hturns, hrst, -⟩ | ⟨c, rest, -, -, -, hcycle⟩ | ⟨i, -, hi, hexec⟩
  · rw [hreset c rest hturns] at hrst; cases hrst
  · exact performCycle_configuration_of_busy (s := { s with turns := rest }) hb hcycle
  · exact exec_uop_configuration (s := { s with turns := s.turns.tail }) hi hexec

/-- Settles O53: the writes are dropped while `BUSY` = 1, and a step of either agent keeps the configuration. -/
theorem configurationIsFixedDuringARun : Obligations.ConfigurationIsFixedDuringARun := by
  intro s hb
  refine ⟨fun n d => ⟨?_, ?_, ?_, ?_⟩, fun t hreset h => ?_⟩
  · exact exec_writeInstr_of_busy .roundCount d hb
  · exact exec_writeInstr_of_busy .iterCount d hb
  · exact exec_writeInstr_of_busy (.key n) d hb
  · exact exec_writeInstr_of_busy (.block n) d hb
  · simpa only [State.configuration, Configuration.mk.injEq] using step_configuration_of_busy hb hreset h

end Sys2Proof.Machine

/-! Reset (70_reset_and_hazards.md R240): a host turn with `rst_n` = 0 does nothing but reset, and every register reads 0
afterwards. -/

namespace Sys2Proof.Machine

/-- A cycle with `rst_n` = 0 looks at neither the state nor the strobes (R225, R240). -/
theorem step_of_reset {s : State} {c : BusCycle} {rest : List Turn} (hturns : s.turns = .host c :: rest)
    (hrst : c.rstN = false) : step s = .next (resetEngine { s with turns := rest }) := by
  simp only [step, takeTurn, hturns, hostTurn, hrst, Bool.false_eq_true, if_false]

/-- Reset clears the four flags of `STATUS` (R41). -/
theorem statusWord_resetEngine (s : State) : statusWord (resetEngine s) = 0x00000000#32 :=
  have hreset : statusWord State.reset = 0x00000000#32 := by decide
  hreset

/-- After reset every register of the window reads 0 (R41). -/
theorem readReg_resetEngine (r : Reg) (s : State) : readReg r (resetEngine s) = 0x00000000#32 :=
  match r with
  | .status => statusWord_resetEngine s
  | .ctrl | .roundCount | .iterCount => rfl
  | .key n | .block n | .result n => Four.get_fill 0x00000000#32 n

/-- Settles O14: the step is `resetEngine`, whose registers read 0, whose blocks are `Block.zero`, and whose other fields
are constants. -/
theorem resetSetsEveryElement : Obligations.ResetSetsEveryElement := by
  intro s c rest hturns hrst
  have hzero := Block.cell_zero
  exact ⟨resetEngine { s with turns := rest }, step_of_reset hturns hrst, resetEngine_turns _,
    fun r => readReg_resetEngine r _, ⟨rfl, rfl, rfl, rfl⟩, fun r c => ⟨hzero r c, hzero r c, hzero r c⟩,
    rfl, rfl, rfl, rfl, rfl, rfl, rfl⟩

end Sys2Proof.Machine

/-! The codec (30_encoding.md): what an encoding decodes to, and where the operands of a `BUS` word lie. -/

namespace Sys2Proof

/-! ## Decoding an encoding -/

theorem decode_encodeRead (r : Reg) : decode (encodeRead r) = .ok (readInstr r) := by
  rw [encodeRead, decode, decodeBus_read, regOfOffset_regOffset]

theorem decode_encodeWrite (r : Reg) (d : Word) : decode (encodeWrite r d) = .ok (writeInstr d r) := by
  rw [encodeWrite, decode, decodeBus_write, regOfOffset_regOffset]

/-- Settles O2: a bus transaction is the read or the write of a register, whose offset selects it again; a code of a
micro-operation is looked up. -/
theorem decodeInvertsEncode : Obligations.DecodeInvertsEncode
  | .rdCtrl => decode_encodeRead .ctrl
  | .wrCtrl d => decode_encodeWrite .ctrl d
  | .rdStatus => decode_encodeRead .status
  | .wrStatus d => decode_encodeWrite .status d
  | .rdRoundCount => decode_encodeRead .roundCount
  | .wrRoundCount d => decode_encodeWrite .roundCount d
  | .rdIterCount => decode_encodeRead .iterCount
  | .wrIterCount d => decode_encodeWrite .iterCount d
  | .rdKey n => decode_encodeRead (.key n)
  | .wrKey n d => decode_encodeWrite (.key n) d
  | .rdBlock n => decode_encodeRead (.block n)
  | .wrBlock n d => decode_encodeWrite (.block n) d
  | .rdResult n => decode_encodeRead (.result n)
  | .wrResult n d => decode_encodeWrite (.result n) d
  | .idle | .load | .chain | .snap | .kinit | .whiten | .subshift | .mixcol | .kexp | .ark | .finish => rfl

/-- Different instructions have different encodings (R80). -/
theorem encode_injective {i j : Instr} (h : encode i = encode j) : i = j :=
  Except.ok.inj <| (decodeInvertsEncode i).symm.trans <| (congrArg decode h).trans (decodeInvertsEncode j)

/-- Settles O1: the words and codes are decoded by evaluation. -/
theorem sampleWordsDecode : Obligations.SampleWordsDecode := by
  refine ⟨?_, ?_, ?_, ?_, ?_, ?_, ?_, ?_, ?_, ?_⟩ <;> rfl

/-! ## The operands of a `BUS` word (R81, R82) -/

theorem encode_writeInstr (d : Word) (r : Reg) : encode (writeInstr d r) = encodeWrite r d := by
  cases r <;> rfl

/-- The word of a transaction with its ignored bits cleared (R88). -/
theorem encode_decodeBus (w : BitVec 39) :
    encode (decodeBus w) = if busWe w then encodeWrite (regOfOffset (busOff w)) (busData w)
      else encodeRead (regOfOffset (busOff w)) := by
  unfold decodeBus
  split
  · exact encode_writeInstr _ _
  · exact Machine.encode_readInstr _

/-- Only a write word decodes to a write, and the register and the data are its fields. -/
theorem fields_of_decodeBus_write {w : BitVec 39} {d : Word} {r : Reg} (h : decodeBus w = writeInstr d r) :
    regOfOffset (busOff w) = r ∧ busData w = d := by
  have henc := congrArg encode h
  rw [encode_decodeBus, encode_writeInstr] at henc
  split at henc
  · have hword := Encoded.bus.inj henc
    constructor
    · simpa using congrArg (fun v => regOfOffset (busOff v)) hword
    · simpa using congrArg busData hword
  · simpa using congrArg busWe (Encoded.bus.inj henc)

/-- Only a read word decodes to a read, and the register is the one its offset selects. -/
theorem fields_of_decodeBus_read {w : BitVec 39} {r : Reg} (h : decodeBus w = readInstr r) :
    regOfOffset (busOff w) = r := by
  have henc := congrArg encode h
  rw [encode_decodeBus, Machine.encode_readInstr] at henc
  split at henc
  · simpa using congrArg busWe (Encoded.bus.inj henc)
  · simpa using congrArg (fun v => regOfOffset (busOff v)) (Encoded.bus.inj henc)

/-- The register of a bank is numbered by `OFF[3:2]` (R82). -/
theorem column_of_regOfOffset : ∀ (off : Offset) (n : Fin 4),
    regOfOffset off = .key n ∨ regOfOffset off = .block n ∨ regOfOffset off = .result n →
      n.val = off.toNat / 4 % 4 := by
  decide

/-- `OFF[3:2]` is bits 35:34 of the word (R81). -/
theorem busOff_toNat_column (w : BitVec 39) : (busOff w).toNat / 4 % 4 = w.toNat / 2 ^ 34 % 4 := by
  rw [busOff, BitVec.extractLsb'_toNat, Nat.shiftRight_eq_div_pow]
  omega

theorem busData_toNat (w : BitVec 39) : (busData w).toNat = w.toNat % 2 ^ 32 := by
  rw [busData, BitVec.extractLsb'_toNat, Nat.shiftRight_zero]

/-- Settles O4: the decoder takes the register from `OFF` and the data from `DATA`. -/
theorem busOperandsAreTheirFields : Obligations.BusOperandsAreTheirFields := by
  intro w n d
  constructor
  · intro h
    rw [← busOff_toNat_column]
    refine column_of_regOfOffset _ n ?_
    rcases h with h | h | h | h | h | h
    · exact .inl (fields_of_decodeBus_read (r := .key n) h)
    · exact .inr (.inl (fields_of_decodeBus_read (r := .block n) h))
    · exact .inr (.inr (fields_of_decodeBus_read (r := .result n) h))
    · exact .inl (fields_of_decodeBus_write (r := .key n) h).1
    · exact .inr (.inl (fields_of_decodeBus_write (r := .block n) h).1)
    · exact .inr (.inr (fields_of_decodeBus_write (r := .result n) h).1)
  · intro h
    have hwrite : ∃ r, decodeBus w = writeInstr d r := by
      rcases h with h | h | h | h | h | h | h
      exacts [⟨.ctrl, h⟩, ⟨.status, h⟩, ⟨.roundCount, h⟩, ⟨.iterCount, h⟩, ⟨.key n, h⟩, ⟨.block n, h⟩, ⟨.result n, h⟩]
    obtain ⟨r, hr⟩ := hwrite
    rw [← (fields_of_decodeBus_write hr).2, busData_toNat]

/-! ## The `UOP` codes (R85, R86) -/

/-- A code is legal up to 0xA (R86). -/
theorem StateCode.legal_iff (c : StateCode) : StateCode.legal c = true ↔ c.toNat ≤ 0xA := by
  simp [StateCode.legal]

/-- Settles O5: a code decodes exactly where it is legal, to the micro-operation it is the code of. -/
theorem uopCodesDecodeOrAreReserved : Obligations.UopCodesDecodeOrAreReserved := by
  intro c
  rcases decodeUop_cases c with ⟨hlegal, i, hi⟩ | ⟨hreserved, he⟩
  · have hle := (StateCode.legal_iff c).mp hlegal
    exact ⟨fun _ => ⟨i, hi, encode_of_decodeUop hi⟩, fun hge => absurd hge (by omega)⟩
  · refine ⟨fun hle => ?_, fun _ => he⟩
    rw [(StateCode.legal_iff c).mpr hle] at hreserved
    cases hreserved

end Sys2Proof

/-! What one turn can do (20_memory.md R70), said once for each agent: the micro-operations of the controller as a
relation with one constructor per successor (R160 to R172), the bus cycles of the host as one with a constructor per
kind of effect. -/

namespace Sys2Proof.Machine

/-! ## The controller -/

/-- The effect of a micro-operation, with one constructor per successor where there are several (R160 to R172). -/
inductive MicroStep : Instr → State → State → Prop where
  | idle {s} : MicroStep .idle s s
  | load {s} : MicroStep .load s { s with w := blockB s, iter := 1#32, cs := csSnap }
  | chain {s} : MicroStep .chain s { s with w := addRoundKey s.w s.p, cs := csSnap }
  | snap {s} : MicroStep .snap s { s with p := s.w, cs := csKinit }
  | kinit {s} : MicroStep .kinit s { s with k := keyB s, cursor := 0x0#4, round := 0#32, cs := csWhiten }
  | whiten {s} : MicroStep .whiten s { s with w := addRoundKey s.w s.k, round := 1#32, cs := csSubshift }
  | subshiftInner {s} (hround : s.round < s.roundCount) :
      MicroStep .subshift s { s with w := subShift s.w, cs := csMixcol }
  | subshiftFinal {s} (hround : ¬ s.round < s.roundCount) :
      MicroStep .subshift s { s with w := subShift s.w, cs := csKexp }
  | mixcol {s} : MicroStep .mixcol s { s with w := mixColumns s.w, cs := csKexp }
  | kexp {s} : MicroStep .kexp s { s with k := deriveKey s.k s.cursor, cursor := advanceCursor s.cursor, cs := csArk }
  | arkNextRound {s} (hround : s.round < s.roundCount) :
      MicroStep .ark s { s with w := addRoundKey s.w s.k, round := s.round + 1#32, cs := csSubshift }
  | arkNextIteration {s} (hround : ¬ s.round < s.roundCount) (hiter : s.iter < s.iterCount) :
      MicroStep .ark s { s with w := addRoundKey s.w s.k, iter := s.iter + 1#32, cs := csChain }
  | arkFinish {s} (hround : ¬ s.round < s.roundCount) (hiter : ¬ s.iter < s.iterCount) :
      MicroStep .ark s { s with w := addRoundKey s.w s.k, cs := csFinish }
  | finish {s} : MicroStep .finish s { s with result := pack s.w, done := true, busy := false, cs := csIdle }

theorem exec_subshift_inner {s : State} (hround : s.round < s.roundCount) :
    exec .subshift s = .next { s with w := subShift s.w, cs := csMixcol } := by
  simp only [exec, execSubshift, if_pos hround]

theorem exec_subshift_final {s : State} (hround : ¬ s.round < s.roundCount) :
    exec .subshift s = .next { s with w := subShift s.w, cs := csKexp } := by
  simp only [exec, execSubshift, if_neg hround]

/-- Every micro-operation completes, and the relation says how. -/
theorem exec_microStep {i : Instr} (hi : isBusInstr i = false) (s : State) :
    ∃ t, exec i s = .next t ∧ MicroStep i s t := by
  cases i with
  | idle => exact ⟨_, rfl, .idle⟩
  | load => exact ⟨_, rfl, .load⟩
  | chain => exact ⟨_, rfl, .chain⟩
  | snap => exact ⟨_, rfl, .snap⟩
  | kinit => exact ⟨_, rfl, .kinit⟩
  | whiten => exact ⟨_, rfl, .whiten⟩
  | mixcol => exact ⟨_, rfl, .mixcol⟩
  | kexp => exact ⟨_, rfl, .kexp⟩
  | finish => exact ⟨_, rfl, .finish⟩
  | subshift =>
    by_cases hround : s.round < s.roundCount
    · exact ⟨_, exec_subshift_inner hround, .subshiftInner hround⟩
    · exact ⟨_, exec_subshift_final hround, .subshiftFinal hround⟩
  | ark =>
    by_cases hround : s.round < s.roundCount
    · exact ⟨_, exec_ark_nextRound hround, .arkNextRound hround⟩
    · by_cases hiter : s.iter < s.iterCount
      · exact ⟨_, exec_ark_nextIteration hround hiter, .arkNextIteration hround hiter⟩
      · exact ⟨_, exec_ark_finish hround hiter, .arkFinish hround hiter⟩
  | _ => cases hi

theorem microStep_of_exec {i : Instr} {s t : State} (hi : isBusInstr i = false) (h : exec i s = .next t) :
    MicroStep i s t := by
  obtain ⟨u, hu, hstep⟩ := exec_microStep hi s
  obtain rfl := Host.Outcome.next.inj (hu.symm.trans h)
  exact hstep

/-- What has a `UOP` code is a micro-operation (R85). -/
theorem isBusInstr_of_encode_uop {i : Instr} {c : StateCode} (hi : encode i = .uop c) : isBusInstr i = false := by
  cases i <;> first | rfl | cases hi

/-- From a legal code a controller turn completes, with the effect of the micro-operation `cs` names (R36). -/
theorem controllerTurn_microStep {s : State} (hs : StateCode.legal s.cs = true) :
    ∃ i t, encode i = .uop s.cs ∧ controllerTurn s = .next t ∧ MicroStep i s t := by
  rcases controllerTurn_cases s with ⟨-, i, hi, he⟩ | ⟨hreserved, -⟩
  · obtain ⟨t, ht, hstep⟩ := exec_microStep (isBusInstr_of_encode_uop hi) s
    exact ⟨i, t, hi, he.trans ht, hstep⟩
  · rw [hs] at hreserved; cases hreserved

theorem controllerTurn_of_decode {s : State} {i : Instr} (hi : decode (.uop s.cs) = .ok i) :
    controllerTurn s = exec i s := by
  simp only [controllerTurn, hi]

/-- In IDLE the controller has no step (R160). -/
theorem controllerTurn_of_idle {s : State} (hcs : s.cs = csIdle) : controllerTurn s = .next s :=
  controllerTurn_of_decode (i := .idle) (by rw [hcs]; rfl)

theorem MicroStep.turns_eq {i : Instr} {s t : State} (h : MicroStep i s t) : t.turns = s.turns := by
  cases h <;> rfl

/-! ## The host -/

/-- What a bus cycle leaves in the model's own fields: the returned data and the count of free values (log 3, log 4). -/
def State.withReply (s : State) (v : Option Word) (n : Nat) : State := { s with busRdata := v, freeIx := n }

/-- The effect of a bus cycle out of reset, but for what it returns: none, a store into a register, or a START
(R84, R191 to R205). -/
inductive BusStep : State → State → Prop where
  | quiet {s} (v : Option Word) (n : Nat) : BusStep s (s.withReply v n)
  | store {s} (r : Reg) (d : Word) (v : Option Word) (n : Nat) (hb : s.busy = false) :
      BusStep s ((storeReg r d s).withReply v n)
  | reject {s} (v : Option Word) (n : Nat) (hb : s.busy = false) (hbad : ¬ countsValid s) :
      BusStep s ((raiseConfigError (roundsInvalid s) (itersInvalid s) (clearForStart s)).withReply v n)
  | accept {s} (v : Option Word) (n : Nat) (hb : s.busy = false) (hvalid : countsValid s) :
      BusStep s ((acceptStart (clearForStart s)).withReply v n)

theorem storeReg_answerWrite (r : Reg) (d : Word) (s : State) :
    storeReg r d (answerWrite s) = (storeReg r d s).withReply none s.freeIx := by
  cases r <;> rfl

theorem busStep_busRead (r : Reg) (s : State) : BusStep s (busRead r s) := .quiet (some (readReg r s)) s.freeIx

theorem busStep_answerWrite (s : State) : BusStep s (answerWrite s) := .quiet none s.freeIx

/-- What the write of a configuration register leaves alone, whatever the register and with or without a run. -/
theorem writeConfig_frame (r : Reg) (d : Word) (s : State) :
    writeConfig r d s =
      { s with
        roundCount := (writeConfig r d s).roundCount
        iterCount := (writeConfig r d s).iterCount
        key := (writeConfig r d s).key
        block := (writeConfig r d s).block
        busRdata := none } := by
  rcases writeConfig_cases r d s with ⟨-, he⟩ | ⟨-, he⟩ <;> rw [he]
  · rfl
  · exact storeReg_frame r d (answerWrite s)

theorem busStep_writeConfig (r : Reg) (d : Word) (s : State) : BusStep s (writeConfig r d s) := by
  rcases writeConfig_cases r d s with ⟨-, he⟩ | ⟨hb, he⟩
  · rw [he]; exact busStep_answerWrite s
  · rw [he, storeReg_answerWrite]; exact .store r d none s.freeIx hb

/-- A START acted on and accepted (R191). -/
theorem writeCtrl_accepted {d : Word} {s : State} (hd : d.getLsbD 0 = true) (hb : s.busy = false)
    (hvalid : countsValid s) :
    writeCtrl d s = acceptStart (clearForStart (answerWrite s)) :=
  (writeCtrl_of_start hd hb).trans (actOnStart_of_valid (s := answerWrite s) hvalid)

/-- A START acted on and rejected (R220). -/
theorem writeCtrl_rejected {d : Word} {s : State} (hd : d.getLsbD 0 = true) (hb : s.busy = false)
    (hbad : ¬ countsValid s) :
    writeCtrl d s = raiseConfigError (roundsInvalid s) (itersInvalid s) (clearForStart (answerWrite s)) :=
  (writeCtrl_of_start hd hb).trans (actOnStart_of_not_valid (s := answerWrite s) hbad)

theorem busStep_writeCtrl (d : Word) (s : State) : BusStep s (writeCtrl d s) := by
  rcases writeCtrl_cases d s with ⟨hd, hb, -⟩ | ⟨-, he⟩
  · by_cases hvalid : countsValid s
    · rw [writeCtrl_accepted hd hb hvalid]; exact .accept none s.freeIx hb hvalid
    · rw [writeCtrl_rejected hd hb hvalid]; exact .reject none s.freeIx hb hvalid
  · rw [he]; exact busStep_answerWrite s

theorem busStep_busWrite (r : Reg) (d : Word) (s : State) : BusStep s (busWrite r d s) :=
  match r with
  | .ctrl => busStep_writeCtrl d s
  | .status | .result _ => busStep_answerWrite s
  | .roundCount | .iterCount | .key _ | .block _ => busStep_writeConfig _ d s

theorem exec_decodeBus (w : BitVec 39) (s : State) :
    exec (decodeBus w) s = .next (if busWe w then busWrite (regOfOffset (busOff w)) (busData w) s
      else busRead (regOfOffset (busOff w)) s) := by
  unfold decodeBus
  split
  · exact exec_writeInstr _ _ s
  · exact exec_readInstr _ s

theorem exec_decodeBus_busStep (w : BitVec 39) (s : State) : ∃ t, exec (decodeBus w) s = .next t ∧ BusStep s t := by
  refine ⟨_, exec_decodeBus w s, ?_⟩
  split
  · exact busStep_busWrite _ _ s
  · exact busStep_busRead _ s

/-- Free read data is one more reply (R84). -/
theorem BusStep.answerFree {s t : State} (h : BusStep s t) : BusStep s (answerFree t) := by
  cases h with
  | quiet v n => exact .quiet _ _
  | store r d v n hb => exact .store r d _ _ hb
  | reject v n hb hbad => exact .reject _ _ hb hbad
  | accept v n hb hvalid => exact .accept _ _ hb hvalid

theorem performCycle_of_one_strobe {c : BusCycle} (h : c.we ≠ c.re) (s : State) :
    performCycle c s = exec (decodeBus (busWord c)) s := by
  unfold performCycle
  cases hw : c.we <;> cases hr : c.re <;> simp_all

theorem performCycle_of_both_strobes {c : BusCycle} (hw : c.we = true) (hr : c.re = true) (s : State) :
    performCycle c s = onNext (exec (decodeBus (busWord c)) s) Machine.answerFree := by
  simp only [performCycle, hw, hr]

theorem performCycle_of_no_strobe {c : BusCycle} (hw : c.we = false) (hr : c.re = false) (s : State) :
    performCycle c s = .next s := by
  simp only [performCycle, hw, hr]

/-- Every bus cycle completes, whatever its strobes (R84, R224). -/
theorem performCycle_busStep (c : BusCycle) (s : State) : ∃ t, performCycle c s = .next t ∧ BusStep s t := by
  obtain ⟨u, hu, hstep⟩ := exec_decodeBus_busStep (busWord c) s
  by_cases hone : c.we = c.re
  · cases hw : c.we with
    | false => exact ⟨s, performCycle_of_no_strobe hw (hone ▸ hw) s, .quiet s.busRdata s.freeIx⟩
    | true =>
      exact ⟨answerFree u, by rw [performCycle_of_both_strobes hw (hone ▸ hw), hu, onNext_next], hstep.answerFree⟩
  · exact ⟨u, (performCycle_of_one_strobe hone s).trans hu, hstep⟩

theorem hostTurn_of_legal {c : BusCycle} {s : State} (hrst : c.rstN = true) (hs : StateCode.legal s.cs = true) :
    hostTurn c s = performCycle c s := by
  rw [hostTurn, if_pos hrst, if_pos hs]

theorem BusStep.turns_eq {s t : State} (h : BusStep s t) : t.turns = s.turns := by
  cases h with
  | store r d v n hb => cases r <;> rfl
  | _ => rfl

/-! ## The step, by the head of the list of turns -/

theorem step_of_nil {s : State} (h : s.turns = []) : step s = controllerTurn s := by
  simp only [step, takeTurn, h]

theorem step_of_controller {s : State} {rest : List Turn} (h : s.turns = .controller :: rest) :
    step s = controllerTurn { s with turns := rest } := by
  simp only [step, takeTurn, h]

theorem step_of_host {s : State} {c : BusCycle} {rest : List Turn} (h : s.turns = .host c :: rest) :
    step s = hostTurn c { s with turns := rest } := by
  simp only [step, takeTurn, h]

/-- The controller moves when its turn is listed, and when none is (log 1). -/
theorem step_of_controller_next {s : State} (h : s.turns = [] ∨ s.turns.head? = some .controller) :
    step s = controllerTurn { s with turns := s.turns.tail } := by
  rcases h with hnil | hhead
  · have hsame : { s with turns := s.turns.tail } = s := by rw [hnil, List.tail_nil, ← hnil]
    rw [step_of_nil hnil, hsame]
  · exact step_of_controller (List.eq_cons_of_mem_head? hhead)

/-- Everything a step that answers a next state has done: a reset, the effect of a bus cycle, or that of the
micro-operation `cs` names. -/
theorem step_effect {s t : State} (h : step s = .next t) :
    ∃ rest, t = resetEngine { s with turns := rest } ∨ BusStep { s with turns := rest } t ∨
      ∃ i, encode i = .uop s.cs ∧ MicroStep i { s with turns := rest } t := by
  rcases step_cases h with ⟨c, rest, -, -, he⟩ | ⟨c, rest, -, -, -, hcycle⟩ | ⟨i, -, hi, hexec⟩
  · exact ⟨rest, .inl he⟩
  · obtain ⟨u, hu, hstep⟩ := performCycle_busStep c { s with turns := rest }
    obtain rfl := Host.Outcome.next.inj (hu.symm.trans hcycle)
    exact ⟨rest, .inr (.inl hstep)⟩
  · exact ⟨s.turns.tail, .inr (.inr ⟨i, hi, microStep_of_exec (isBusInstr_of_encode_uop hi) hexec⟩)⟩

end Sys2Proof.Machine

/-! The control invariant (10_state.md R28, R33 to R37) is kept by both agents: the host changes an idle engine only,
and the controller goes from one position of a run to the next. -/

namespace Sys2Proof

open Machine

/-! ## Idle states -/

/-- In IDLE only the flags, `RESULT` and the cursor are constrained. -/
theorem inv_of_idle {t : State} (hcs : t.cs = csIdle) (hb : t.busy = false)
    (hdone : t.done = true → t.errRounds = false ∧ t.errIters = false)
    (hresult : t.done = false → t.result = Four.fill 0x00000000#32) (hcursor : t.cursor.toNat < Config.rconLen) :
    Inv t where
  csLegal := by rw [hcs]; rfl
  busyIffRunning := by simp [hb, hcs]
  busyAlone := by simp [hb]
  doneAlone := hdone
  countsValid := by simp [hb]
  resultHidden := hresult
  cursorInTable := hcursor
  iterInRange := by simp [hb]
  chainIter h := absurd h (by rw [hcs]; decide)
  roundZero h := absurd h (by rw [hcs]; decide)
  roundInRange h := absurd h (by rw [hcs]; decide)
  mixcolRound h := absurd h (by rw [hcs]; decide)
  finishCounts h := absurd h (by rw [hcs]; decide)

theorem Inv.cs_of_not_busy {s : State} (h : Inv s) (hb : s.busy = false) : s.cs = csIdle := by
  by_contra hcs
  rw [h.busyIffRunning.mpr hcs] at hb
  cases hb

theorem inv_reset : Inv State.reset :=
  inv_of_idle rfl rfl (fun h => by cases h) (fun _ => rfl) (by decide)

/-! ## Positions of a run -/

/-- A number from 1 to a count, as the counters of a run are (R34, R35). -/
def oneTo (v n : Word) : Prop := 1 ≤ v.toNat ∧ v.toNat ≤ n.toNat

/-- What the counters `ITER` and `ROUND` are at each controller state of a run of `R` rounds and `N` iterations. -/
inductive RunPosition (R N iter round : Word) : StateCode → Prop where
  | load : RunPosition R N iter round csLoad
  | chain (hiter : oneTo iter N) (hsecond : 2 ≤ iter.toNat) : RunPosition R N iter round csChain
  | snap (hiter : oneTo iter N) : RunPosition R N iter round csSnap
  | kinit (hiter : oneTo iter N) : RunPosition R N iter round csKinit
  | whiten (hiter : oneTo iter N) (hzero : round = 0#32) : RunPosition R N iter round csWhiten
  | subshift (hiter : oneTo iter N) (hround : oneTo round R) : RunPosition R N iter round csSubshift
  | mixcol (hiter : oneTo iter N) (hround : oneTo round R) (hinner : round.toNat < R.toNat) :
      RunPosition R N iter round csMixcol
  | kexp (hiter : oneTo iter N) (hround : oneTo round R) : RunPosition R N iter round csKexp
  | ark (hiter : oneTo iter N) (hround : oneTo round R) : RunPosition R N iter round csArk
  | finish (hiter : oneTo iter N) (hlast : round = R ∧ iter = N) : RunPosition R N iter round csFinish

/-- The position of a state of a run, which is what `Inv` says of its counters. -/
theorem Inv.position {s : State} (h : Inv s) (hb : s.busy = true) :
    RunPosition s.roundCount s.iterCount s.iter s.round s.cs := by
  have hiter : s.cs ≠ csLoad → oneTo s.iter s.iterCount := h.iterInRange hb
  have hround : StateCode.inRound s.cs = true → oneTo s.round s.roundCount := h.roundInRange
  have hrunning := h.busyIffRunning.mp hb
  have hchain := h.chainIter
  have hzero := h.roundZero
  have hmixcol := h.mixcolRound
  have hfinish := h.finishCounts
  rcases StateCode.legal_cases s.cs h.csLegal with hcs | hcs | hcs | hcs | hcs | hcs | hcs | hcs | hcs | hcs | hcs <;>
    rw [hcs] at hiter hround hrunning hchain hzero hmixcol hfinish ⊢
  · exact absurd rfl hrunning
  · exact .load
  · exact .chain (hiter (by decide)) (hchain rfl)
  · exact .snap (hiter (by decide))
  · exact .kinit (hiter (by decide))
  · exact .whiten (hiter (by decide)) (hzero rfl)
  · exact .subshift (hiter (by decide)) (hround rfl)
  · exact .mixcol (hiter (by decide)) (hround rfl) (hmixcol rfl)
  · exact .kexp (hiter (by decide)) (hround rfl)
  · exact .ark (hiter (by decide)) (hround rfl)
  · exact .finish (hiter (by decide)) (hfinish rfl)

section

variable {R N iter round : Word} {cs : StateCode}

theorem RunPosition.legal (h : RunPosition R N iter round cs) : StateCode.legal cs = true := by
  cases h <;> rfl

theorem RunPosition.ne_idle (h : RunPosition R N iter round cs) : cs ≠ csIdle := by
  cases h <;> decide

theorem RunPosition.iterInRange (h : RunPosition R N iter round cs) (hcs : cs ≠ csLoad) : oneTo iter N := by
  cases h with
  | load => exact absurd rfl hcs
  | _ => assumption

theorem RunPosition.chainIter (h : RunPosition R N iter round cs) (hcs : cs = csChain) : 2 ≤ iter.toNat := by
  cases h with
  | chain _ hsecond => exact hsecond
  | _ => exact absurd hcs (by decide)

theorem RunPosition.roundZero (h : RunPosition R N iter round cs) (hcs : cs = csWhiten) : round = 0#32 := by
  cases h with
  | whiten _ hzero => exact hzero
  | _ => exact absurd hcs (by decide)

theorem RunPosition.roundInRange (h : RunPosition R N iter round cs) (hcs : StateCode.inRound cs = true) :
    oneTo round R := by
  cases h with
  | subshift _ hround | mixcol _ hround _ | kexp _ hround | ark _ hround => exact hround
  | _ => exact absurd hcs (by decide)

theorem RunPosition.mixcolRound (h : RunPosition R N iter round cs) (hcs : cs = csMixcol) : round.toNat < R.toNat := by
  cases h with
  | mixcol _ _ hinner => exact hinner
  | _ => exact absurd hcs (by decide)

theorem RunPosition.finishCounts (h : RunPosition R N iter round cs) (hcs : cs = csFinish) : round = R ∧ iter = N := by
  cases h with
  | finish _ hlast => exact hlast
  | _ => exact absurd hcs (by decide)

end

/-- The flags, the counts and `RESULT` stay during a run, so a position is all that `Inv` asks of its next state. -/
theorem Inv.at_position {s : State} (h : Inv s) (hb : s.busy = true) {w k p : Block} {cursor : BitVec 4}
    {iter round : Word} {cs : StateCode} (hpos : RunPosition s.roundCount s.iterCount iter round cs)
    (hcursor : cursor.toNat < Config.rconLen) :
    Inv { s with w := w, k := k, p := p, cursor := cursor, iter := iter, round := round, cs := cs } where
  csLegal := hpos.legal
  busyIffRunning := ⟨fun _ => hpos.ne_idle, fun _ => hb⟩
  busyAlone := h.busyAlone
  doneAlone := h.doneAlone
  countsValid := h.countsValid
  resultHidden := h.resultHidden
  cursorInTable := hcursor
  iterInRange := fun _ => hpos.iterInRange
  chainIter := hpos.chainIter
  roundZero := hpos.roundZero
  roundInRange := hpos.roundInRange
  mixcolRound := hpos.mixcolRound
  finishCounts := hpos.finishCounts

/-! ## The controller -/

/-- `cs` holds the code of the micro-operation that its turn performs. -/
theorem cs_of_encode {i : Instr} {c c' : StateCode} (hi : encode i = .uop c) (hc : encode i = .uop c') : c = c' :=
  Encoded.uop.inj (hi.symm.trans hc)

theorem Inv.busy_of_cs {s : State} (h : Inv s) {c : StateCode} (hcs : s.cs = c) (hne : c ≠ csIdle) : s.busy = true :=
  h.busyIffRunning.mpr (hcs ▸ hne)

/-- During a run both counts are at least 1 as unsigned numbers too (R24, R25). -/
theorem Inv.counts_pos {s : State} (h : Inv s) (hb : s.busy = true) :
    1 ≤ s.roundCount.toNat ∧ 1 ≤ s.iterCount.toNat :=
  have ⟨hr, hn⟩ := h.countsValid hb
  ⟨(sint32_pos hr).2.1, (sint32_pos hn).2.1⟩

/-- A counter below a count goes up without passing it. -/
theorem oneTo_add_one {v n : Word} (h : v < n) : oneTo (v + 1#32) n := by
  have hlt := BitVec.lt_def.mp h
  rw [oneTo, toNat_add_one_of_lt hlt]
  exact ⟨Nat.le_add_left 1 _, hlt⟩

/-- The last value a counter takes is its count. -/
theorem oneTo.eq_of_not_lt {v n : Word} (h : oneTo v n) (hlast : ¬ v < n) : v = n :=
  BitVec.eq_of_toNat_eq (Nat.le_antisymm h.2 (BitVec.le_def.mp (BitVec.not_lt.mp hlast)))

/-- A micro-operation at a position of a run leads to the next position, FINISH to IDLE (R171). -/
theorem Inv.microStep {i : Instr} {s t : State} (h : Inv s) (hi : encode i = .uop s.cs) (hstep : MicroStep i s t) :
    Inv t := by
  cases hb : s.busy with
  | false =>
    obtain rfl : i = .idle := encode_injective (hi.trans (congrArg Encoded.uop (h.cs_of_not_busy hb)))
    cases hstep
    exact h
  | true =>
    have hiter {c : StateCode} (hc : encode i = .uop c) (hload : c ≠ csLoad) : oneTo s.iter s.iterCount :=
      (h.position hb).iterInRange (cs_of_encode hi hc ▸ hload)
    have hround {c : StateCode} (hc : encode i = .uop c) (hin : StateCode.inRound c = true) :
        oneTo s.round s.roundCount :=
      h.roundInRange (cs_of_encode hi hc ▸ hin)
    have hcursor := h.cursorInTable
    obtain ⟨hroundCount, hiterCount⟩ := h.counts_pos hb
    cases hstep with
    | idle => exact h
    | load => exact h.at_position hb (.snap ⟨le_rfl, hiterCount⟩) hcursor
    | chain => exact h.at_position hb (.snap (hiter rfl (by decide))) hcursor
    | snap => exact h.at_position hb (.kinit (hiter rfl (by decide))) hcursor
    | kinit => exact h.at_position hb (.whiten (hiter rfl (by decide)) rfl) (by decide)
    | whiten => exact h.at_position hb (.subshift (hiter rfl (by decide)) ⟨le_rfl, hroundCount⟩) hcursor
    | subshiftInner hlt =>
      exact h.at_position hb (.mixcol (hiter rfl (by decide)) (hround rfl rfl) (BitVec.lt_def.mp hlt)) hcursor
    | subshiftFinal hge => exact h.at_position hb (.kexp (hiter rfl (by decide)) (hround rfl rfl)) hcursor
    | mixcol => exact h.at_position hb (.kexp (hiter rfl (by decide)) (hround rfl rfl)) hcursor
    | kexp => exact h.at_position hb (.ark (hiter rfl (by decide)) (hround rfl rfl)) (advanceCursor_lt s.cursor)
    | arkNextRound hlt => exact h.at_position hb (.subshift (hiter rfl (by decide)) (oneTo_add_one hlt)) hcursor
    | arkNextIteration hge hlt =>
      have hsecond : 2 ≤ (s.iter + 1#32).toNat := by
        rw [toNat_add_one_of_lt (BitVec.lt_def.mp hlt)]
        exact Nat.succ_le_succ (hiter rfl (by decide)).1
      exact h.at_position hb (.chain (oneTo_add_one hlt) hsecond) hcursor
    | arkFinish hroundGe hiterGe =>
      have hiter := hiter rfl (by decide)
      exact h.at_position hb
        (.finish hiter ⟨(hround rfl rfl).eq_of_not_lt hroundGe, hiter.eq_of_not_lt hiterGe⟩) hcursor
    | finish =>
      obtain ⟨-, herrRounds, herrIters⟩ := h.busyAlone hb
      exact inv_of_idle rfl rfl (fun _ => ⟨herrRounds, herrIters⟩) (fun hdone => by cases hdone) hcursor

/-! ## The host -/

/-- `Inv` says nothing of the list of turns, the returned data or the count of free values. -/
theorem Inv.withTurns {s : State} (h : Inv s) (ts : List Turn) : Inv { s with turns := ts } where
  __ := h

theorem Inv.withReply {s : State} (h : Inv s) (v : Option Word) (n : Nat) : Inv (s.withReply v n) where
  __ := h

/-- A store changes nothing that `Inv` asks of an idle engine. -/
theorem Inv.storeReg {s : State} (h : Inv s) (hb : s.busy = false) (r : Reg) (d : Word) : Inv (storeReg r d s) := by
  rw [storeReg_frame]
  exact inv_of_idle (h.cs_of_not_busy hb) hb h.doneAlone h.resultHidden h.cursorInTable

/-- An accepted START puts the run at LOAD with no flag but `BUSY` (R191). -/
theorem Inv.acceptStart {s : State} (h : Inv s) (hvalid : Machine.countsValid s) :
    Inv (acceptStart (clearForStart s)) :=
  have hpos : RunPosition s.roundCount s.iterCount s.iter s.round csLoad := .load
  { csLegal := hpos.legal
    busyIffRunning := ⟨fun _ => hpos.ne_idle, fun _ => rfl⟩
    busyAlone := fun _ => ⟨rfl, rfl, rfl⟩
    doneAlone := fun hdone => by cases hdone
    countsValid := fun _ => hvalid
    resultHidden := fun _ => rfl
    cursorInTable := h.cursorInTable
    iterInRange := fun _ => hpos.iterInRange
    chainIter := hpos.chainIter
    roundZero := hpos.roundZero
    roundInRange := hpos.roundInRange
    mixcolRound := hpos.mixcolRound
    finishCounts := hpos.finishCounts }

/-- A START acted on leaves the engine idle with the error recorded, or begins a run (R191, R220). -/
theorem Inv.busStep {s t : State} (h : Inv s) (hstep : BusStep s t) : Inv t := by
  cases hstep with
  | quiet v n => exact h.withReply v n
  | store r d v n hb => exact (h.storeReg hb r d).withReply v n
  | reject v n hb hbad =>
    exact inv_of_idle (h.cs_of_not_busy hb) hb (fun hdone => by cases hdone) (fun _ => rfl) h.cursorInTable
  | accept v n hb hvalid => exact (h.acceptStart hvalid).withReply v n

theorem inv_resetEngine (s : State) : Inv (resetEngine s) :=
  (inv_reset.withTurns s.turns).withReply none s.freeIx

/-- Settles O51: a step is a reset, a bus cycle or a micro-operation, and each of them keeps the invariant. -/
theorem stepKeepsControlInvariant : Obligations.StepKeepsControlInvariant := by
  intro s t h hstep
  obtain ⟨rest, rfl | hbus | ⟨i, hi, hmicro⟩⟩ := step_effect hstep
  · exact inv_resetEngine _
  · exact (h.withTurns rest).busStep hbus
  · exact (h.withTurns rest).microStep hi hmicro

end Sys2Proof

/-! The datapath invariant (43_round_controller.md R165, R173, R174) is kept by both agents: a micro-operation computes
the next stage of EncryptBlock and Run, and the host leaves the datapath and the configuration of a run alone. -/

namespace Sys2Proof

open Machine

/-! ## Stages of a run -/

/-- What the datapath holds at each controller state, with `iterInput`, `afterRounds` and `mixedInput` for the functions
of R173 and R174. -/
inductive DatapathStage (s : State) : StateCode → Prop where
  | idle : DatapathStage s csIdle
  | load : DatapathStage s csLoad
  | chain (hwp : (s.w, s.p) = iterationsDone (keyB s) (blockB s) s.roundCount.toNat (s.iter.toNat - 2)) :
      DatapathStage s csChain
  | snap (hw : s.w = iterInput s) : DatapathStage s csSnap
  | kinit (hw : s.w = iterInput s) (hp : s.p = iterInput s) : DatapathStage s csKinit
  | whiten (hw : s.w = iterInput s) (hp : s.p = iterInput s) (hk : s.k = keyB s ∧ s.cursor = 0x0#4) :
      DatapathStage s csWhiten
  | subshift (hp : s.p = iterInput s) (hwk : (s.w, s.k, s.cursor) = afterRounds s (s.round.toNat - 1)) :
      DatapathStage s csSubshift
  | mixcol (hp : s.p = iterInput s)
      (hwk : (s.w, s.k, s.cursor) =
        (subShift (afterRounds s (s.round.toNat - 1)).1, (afterRounds s (s.round.toNat - 1)).2)) :
      DatapathStage s csMixcol
  | kexp (hp : s.p = iterInput s)
      (hwk : (s.w, s.k, s.cursor) = (mixedInput s, (afterRounds s (s.round.toNat - 1)).2)) : DatapathStage s csKexp
  | ark (hp : s.p = iterInput s) (hwk : (s.w, s.k, s.cursor) = (mixedInput s, (afterRounds s s.round.toNat).2)) :
      DatapathStage s csArk
  | finish (hw : s.w = runBlocks (keyB s) (blockB s) s.roundCount.toNat s.iterCount.toNat) : DatapathStage s csFinish

/-- `RunInv` asks of a state only the clauses of its own `cs`. -/
theorem DatapathStage.runInv {s : State} {c : StateCode} (h : DatapathStage s c) (hcs : s.cs = c) : RunInv s where
  atChain hc := by
    rw [hcs] at hc
    cases h with
    | chain hwp => exact hwp
    | _ => exact absurd hc (by decide)
  atSnap hc := by
    rw [hcs] at hc
    cases h with
    | snap hw => exact hw
    | _ => exact absurd hc (by decide)
  atKinit hc := by
    rw [hcs] at hc
    cases h with
    | kinit hw | whiten hw => exact hw
    | _ => exact absurd hc (by decide)
  atWhiten hc := by
    rw [hcs] at hc
    cases h with
    | whiten _ _ hk => exact hk
    | _ => exact absurd hc (by decide)
  snapshot hc := by
    rw [hcs] at hc
    cases h with
    | kinit _ hp | whiten _ hp | subshift hp | mixcol hp | kexp hp | ark hp => exact hp
    | _ => exact absurd hc (by decide)
  atSubshift hc := by
    rw [hcs] at hc
    cases h with
    | subshift _ hwk => exact hwk
    | _ => exact absurd hc (by decide)
  atMixcol hc := by
    rw [hcs] at hc
    cases h with
    | mixcol _ hwk => exact hwk
    | _ => exact absurd hc (by decide)
  atKexp hc := by
    rw [hcs] at hc
    cases h with
    | kexp _ hwk => exact hwk
    | _ => exact absurd hc (by decide)
  atArk hc := by
    rw [hcs] at hc
    cases h with
    | ark _ hwk => exact hwk
    | _ => exact absurd hc (by decide)
  atFinish hc := by
    rw [hcs] at hc
    cases h with
    | finish hw => exact hw
    | _ => exact absurd hc (by decide)

/-! ## The stages of an iteration -/

/-- Before round 1 only the whitening is done (R173). -/
theorem afterRounds_zero (s : State) : afterRounds s 0 = (addRoundKey (iterInput s) (keyB s), keyB s, 0x0#4) := rfl

theorem roundFn_eq (A Kr : Block) (final : Bool) :
    roundFn A Kr final = addRoundKey (if final then subShift A else mixColumns (subShift A)) Kr := rfl

/-- Round `ROUND` derives the next round key and mixes it into `mixedInput` (R131, R173). -/
theorem afterRounds_round {s : State} (hround : 1 ≤ s.round.toNat) :
    afterRounds s s.round.toNat =
      (addRoundKey (mixedInput s) (afterRounds s s.round.toNat).2.1,
        deriveKey (afterRounds s (s.round.toNat - 1)).2.1 (afterRounds s (s.round.toNat - 1)).2.2,
        advanceCursor (afterRounds s (s.round.toNat - 1)).2.2) := by
  obtain ⟨j, hj⟩ := Nat.exists_eq_add_of_le' hround
  simp only [afterRounds, mixedInput, hj, Nat.add_sub_cancel, roundsDone_succ, roundFn_eq, beq_iff_eq]

/-- After the last round the block is the encryption of the iteration's input, which `W` and `P` then hold (R174). -/
theorem iterationsDone_of_afterRounds (s : State) :
    ((afterRounds s s.roundCount.toNat).1, iterInput s) =
      iterationsDone (keyB s) (blockB s) s.roundCount.toNat (s.iter.toNat - 1) :=
  Prod.ext (iterationsDone_fst (keyB s) (blockB s) s.roundCount.toNat (s.iter.toNat - 1)).symm rfl

/-- SUBSHIFT of the final round leaves the block that takes the round key, MIXCOL that of an inner round (R131). -/
theorem mixedInput_final {s : State} (h : s.round = s.roundCount) :
    mixedInput s = subShift (afterRounds s (s.round.toNat - 1)).1 := by
  rw [mixedInput, if_pos (congrArg BitVec.toNat h)]

theorem mixedInput_inner {s : State} (h : s.round.toNat < s.roundCount.toNat) :
    mixedInput s = mixColumns (subShift (afterRounds s (s.round.toNat - 1)).1) := by
  rw [mixedInput, if_neg h.ne]

/-- ARK completes round `ROUND` (R170). -/
theorem RunInv.ark_completes_round {s : State} (h : Inv s) (hrun : RunInv s) (hcs : s.cs = csArk) :
    (addRoundKey s.w s.k, s.k, s.cursor) = afterRounds s s.round.toNat := by
  have hround : 1 ≤ s.round.toNat := (h.roundInRange (by rw [hcs]; rfl)).1
  obtain ⟨hw, hk⟩ := Prod.mk.inj (hrun.atArk hcs)
  obtain ⟨hkey, -⟩ := Prod.mk.inj hk
  rw [hw, hk, hkey]
  exact Prod.ext (congrArg Prod.fst (afterRounds_round hround)).symm rfl

/-- ARK of the last round completes iteration `ITER` (R173, R174). -/
theorem RunInv.ark_completes_iteration {s : State} (h : Inv s) (hrun : RunInv s) (hcs : s.cs = csArk)
    (hlast : ¬ s.round < s.roundCount) :
    (addRoundKey s.w s.k, s.p) = iterationsDone (keyB s) (blockB s) s.roundCount.toNat (s.iter.toNat - 1) := by
  have hround : oneTo s.round s.roundCount := h.roundInRange (by rw [hcs]; rfl)
  have hw := congrArg Prod.fst (hrun.ark_completes_round h hcs)
  rw [← iterationsDone_of_afterRounds, hrun.snapshot (.inr (.inr (by rw [hcs]; rfl))), ← hround.eq_of_not_lt hlast]
  exact congrArg (·, iterInput s) hw

/-! ## The controller -/

/-- Each micro-operation computes the next stage from the one before. -/
theorem RunInv.microStep {i : Instr} {s t : State} (h : Inv s) (hrun : RunInv s) (hi : encode i = .uop s.cs)
    (hstep : MicroStep i s t) : RunInv t := by
  have hcs {c : StateCode} (hc : encode i = .uop c) : s.cs = c := cs_of_encode hi hc
  have hp {c : StateCode} (hc : encode i = .uop c) (hin : StateCode.inRound c = true) : s.p = iterInput s :=
    hrun.snapshot (.inr (.inr (hcs hc ▸ hin)))
  cases hstep with
  | idle => exact hrun
  | load => exact DatapathStage.runInv (.snap rfl) rfl
  | chain =>
    have hiter : s.iter.toNat - 1 = s.iter.toNat - 2 + 1 := by
      have hsecond := h.chainIter (hcs rfl)
      omega
    have hinput : iterInput s = addRoundKey s.w s.p := by
      obtain ⟨hw, hp⟩ := Prod.mk.inj (hrun.atChain (hcs rfl))
      rw [iterInput, hiter, iterationsDone_succ, hw, hp]
    exact DatapathStage.runInv (.snap hinput.symm) rfl
  | snap => exact DatapathStage.runInv (.kinit (hrun.atSnap (hcs rfl)) (hrun.atSnap (hcs rfl))) rfl
  | kinit =>
    exact DatapathStage.runInv
      (.whiten (hrun.atKinit (.inl (hcs rfl))) (hrun.snapshot (.inl (hcs rfl))) ⟨rfl, rfl⟩) rfl
  | whiten =>
    obtain ⟨hk, hcursor⟩ := hrun.atWhiten (hcs rfl)
    have hwhitened : (addRoundKey s.w s.k, s.k, s.cursor) = afterRounds s 0 := by
      rw [hrun.atKinit (.inr (hcs rfl)), hk, hcursor, afterRounds_zero]
    exact DatapathStage.runInv (.subshift (hrun.snapshot (.inr (.inl (hcs rfl)))) hwhitened) rfl
  | subshiftInner hlt =>
    obtain ⟨hw, hk⟩ := Prod.mk.inj (hrun.atSubshift (hcs rfl))
    exact DatapathStage.runInv (.mixcol (hp rfl rfl) (Prod.ext (congrArg subShift hw) hk)) rfl
  | subshiftFinal hge =>
    have hlast : s.round = s.roundCount := oneTo.eq_of_not_lt (h.roundInRange (hcs rfl ▸ rfl)) hge
    obtain ⟨hw, hk⟩ := Prod.mk.inj (hrun.atSubshift (hcs rfl))
    exact DatapathStage.runInv
      (.kexp (hp rfl rfl) (Prod.ext ((congrArg subShift hw).trans (mixedInput_final hlast).symm) hk)) rfl
  | mixcol =>
    obtain ⟨hw, hk⟩ := Prod.mk.inj (hrun.atMixcol (hcs rfl))
    exact DatapathStage.runInv
      (.kexp (hp rfl rfl)
        (Prod.ext ((congrArg mixColumns hw).trans (mixedInput_inner (h.mixcolRound (hcs rfl))).symm) hk)) rfl
  | kexp =>
    have hround : 1 ≤ s.round.toNat := (h.roundInRange (hcs rfl ▸ rfl)).1
    obtain ⟨hw, hk⟩ := Prod.mk.inj (hrun.atKexp (hcs rfl))
    have hderived : (deriveKey s.k s.cursor, advanceCursor s.cursor) = (afterRounds s s.round.toNat).2 := by
      rw [afterRounds_round hround, ← hk]
    exact DatapathStage.runInv (.ark (hp rfl rfl) (Prod.ext hw hderived)) rfl
  | arkNextRound hlt =>
    have hround : (s.round + 1#32).toNat - 1 = s.round.toNat := by
      rw [toNat_add_one_of_lt (BitVec.lt_def.mp hlt), Nat.add_sub_cancel]
    have hdone := hrun.ark_completes_round h (hcs rfl)
    exact DatapathStage.runInv (.subshift (hp rfl rfl) (hdone.trans (congrArg (afterRounds s) hround.symm))) rfl
  | arkNextIteration hge hlt =>
    have hiter : (s.iter + 1#32).toNat - 2 = s.iter.toNat - 1 := by
      rw [toNat_add_one_of_lt (BitVec.lt_def.mp hlt)]; omega
    have hdone := hrun.ark_completes_iteration h (hcs rfl) hge
    exact DatapathStage.runInv (.chain (hdone.trans (congrArg (iterationsDone _ _ _) hiter.symm))) rfl
  | arkFinish hroundGe hiterGe =>
    have hlast : s.iter = s.iterCount :=
      oneTo.eq_of_not_lt (h.iterInRange (h.busy_of_cs (hcs rfl) (by decide)) (hcs rfl ▸ by decide)) hiterGe
    have hdone := congrArg Prod.fst (hrun.ark_completes_iteration h (hcs rfl) hroundGe)
    rw [hlast] at hdone
    exact DatapathStage.runInv (.finish hdone) rfl
  | finish => exact DatapathStage.runInv .idle rfl

/-! ## The host -/

theorem RunInv.withTurns {s : State} (h : RunInv s) (ts : List Turn) : RunInv { s with turns := ts } where
  __ := h

theorem RunInv.withReply {s : State} (h : RunInv s) (v : Option Word) (n : Nat) : RunInv (s.withReply v n) where
  __ := h

/-- The host changes a register only where no run is in progress, and there nothing is said of the datapath. -/
theorem RunInv.busStep {s t : State} (h : Inv s) (hrun : RunInv s) (hstep : BusStep s t) : RunInv t := by
  cases hstep with
  | quiet v n => exact hrun.withReply v n
  | store r d v n hb =>
    have hcs : (storeReg r d s).cs = csIdle := by rw [storeReg_frame]; exact h.cs_of_not_busy hb
    exact DatapathStage.runInv .idle hcs
  | reject v n hb hbad => exact DatapathStage.runInv .idle (h.cs_of_not_busy hb)
  | accept v n hb hvalid => exact DatapathStage.runInv .load rfl

theorem runInv_resetEngine (s : State) : RunInv (resetEngine s) := DatapathStage.runInv .idle rfl

/-- Settles O52: a step is a reset, a bus cycle or a micro-operation, and each of them keeps the datapath invariant. -/
theorem stepKeepsDatapathInvariant : Obligations.StepKeepsDatapathInvariant := by
  intro s t h hrun hstep
  obtain ⟨rest, rfl | hbus | ⟨i, hi, hmicro⟩⟩ := step_effect hstep
  · exact runInv_resetEngine _
  · exact (hrun.withTurns rest).busStep (h.withTurns rest) hbus
  · exact (hrun.withTurns rest).microStep (h.withTurns rest) hi hmicro

/-- Settles O15: reset leaves the engine idle, with no flag and no result. -/
theorem resetMeetsInvariants : Obligations.ResetMeetsInvariants := ⟨inv_reset, DatapathStage.runInv .idle rfl⟩

end Sys2Proof

/-! The flags (10_state.md R23, R40): the bits of the `STATUS` word, the values it can have, and what changes a flag. -/

namespace Sys2Proof

open Machine

/-! ## The `STATUS` word -/

/-- Four bits in a word, from bit 3 down to bit 0. -/
theorem low_bits : ∀ e3 e2 e1 e0 : Bool,
    let v : Word := (BitVec.ofBool e3 ++ BitVec.ofBool e2 ++ BitVec.ofBool e1 ++ BitVec.ofBool e0).setWidth 32
    v.getLsbD 0 = e0 ∧ v.getLsbD 1 = e1 ∧ v.getLsbD 2 = e2 ∧ v.getLsbD 3 = e3 := by
  decide

/-- The four flags are the low bits of `STATUS`, in the order of R23. -/
theorem statusWord_low_bits (s : State) :
    (statusWord s).getLsbD 0 = s.busy ∧ (statusWord s).getLsbD 1 = s.done ∧ (statusWord s).getLsbD 2 = s.errRounds ∧
      (statusWord s).getLsbD 3 = s.errIters :=
  low_bits s.errIters s.errRounds s.done s.busy

/-- The other bits of `STATUS` are reserved and read as 0 (R23). -/
theorem statusWord_high_bits (s : State) {i : Nat} (hi : 4 ≤ i) : (statusWord s).getLsbD i = false := by
  rw [statusWord, BitVec.getLsbD_setWidth, BitVec.getLsbD_of_ge _ _ hi, Bool.and_false]

theorem statusWord_of_flags {s : State} {busy done errRounds errIters : Bool} (hb : s.busy = busy) (hd : s.done = done)
    (hr : s.errRounds = errRounds) (hi : s.errIters = errIters) :
    statusWord s =
      (BitVec.ofBool errIters ++ BitVec.ofBool errRounds ++ BitVec.ofBool done ++ BitVec.ofBool busy).setWidth 32 := by
  rw [statusWord, hb, hd, hr, hi]

theorem Inv.not_busy_of_done {s : State} (h : Inv s) (hd : s.done = true) : s.busy = false := by
  by_contra hb
  have hnotDone := (h.busyAlone (by simpa using hb)).1
  rw [hd] at hnotDone
  cases hnotDone

theorem Inv.statusWord_of_busy {s : State} (h : Inv s) (hb : s.busy = true) : statusWord s = 0x00000001#32 := by
  obtain ⟨hd, hr, hi⟩ := h.busyAlone hb
  exact statusWord_of_flags hb hd hr hi

theorem Inv.statusWord_of_done {s : State} (h : Inv s) (hd : s.done = true) : statusWord s = 0x00000002#32 := by
  obtain ⟨hr, hi⟩ := h.doneAlone hd
  exact statusWord_of_flags (h.not_busy_of_done hd) hd hr hi

/-- The six values of `STATUS` (R194): a run alone, `DONE` alone, or the error bits. -/
theorem Inv.statusWord_values {s : State} (h : Inv s) :
    statusWord s = 0x0#32 ∨ statusWord s = 0x1#32 ∨ statusWord s = 0x2#32 ∨ statusWord s = 0x4#32 ∨
      statusWord s = 0x8#32 ∨ statusWord s = 0xC#32 := by
  cases hb : s.busy with
  | true => exact .inr (.inl (h.statusWord_of_busy hb))
  | false =>
    cases hd : s.done with
    | true => exact .inr (.inr (.inl (h.statusWord_of_done hd)))
    | false =>
      cases hr : s.errRounds <;> cases hi : s.errIters <;> rw [statusWord_of_flags hb hd hr hi] <;> decide

/-- Settles O17: the value returned is the `STATUS` word. -/
theorem readStatusReturnsFlags : Obligations.ReadStatusReturnsFlags := by
  intro s
  obtain ⟨hbusy, hdone, herrRounds, herrIters⟩ := statusWord_low_bits s
  exact ⟨statusWord s, rfl, hbusy, hdone, herrRounds, herrIters, fun _ => statusWord_high_bits s, Inv.statusWord_values⟩

/-- Settles O29: the outputs are the flags, which are the bits of `STATUS`. -/
theorem outputsMirrorStatus : Obligations.OutputsMirrorStatus := by
  intro s
  obtain ⟨hbusy, hdone, herrRounds, herrIters⟩ := statusWord_low_bits s
  rw [hbusy, hdone, herrRounds, herrIters]
  exact ⟨rfl, rfl, rfl⟩

/-! ## What changes a flag (R23) -/

/-- The four flags of R23. -/
structure Flags where
  busy : Bool
  done : Bool
  errRounds : Bool
  errIters : Bool

def Machine.State.flags (s : State) : Flags := ⟨s.busy, s.done, s.errRounds, s.errIters⟩

/-- The flags after a START acted on: the outcome of the check of R220, and no `DONE`. -/
def startFlags (s : State) : Flags :=
  ⟨decide (1 ≤ sint32 s.roundCount ∧ 1 ≤ sint32 s.iterCount), false, decide (sint32 s.roundCount < 1),
    decide (sint32 s.iterCount < 1)⟩

theorem writeConfig_flags (r : Reg) (d : Word) (s : State) : (writeConfig r d s).flags = s.flags := by
  rw [writeConfig_frame]; rfl

/-- A write of `CTRL` is a START acted on, or leaves the flags alone (R191). -/
theorem exec_wrCtrl_flags {d : Word} {s t : State} (h : exec (.wrCtrl d) s = .next t) :
    t.flags = s.flags ∨ d.getLsbD 0 = true ∧ s.busy = false ∧ t.flags = startFlags s := by
  obtain ⟨hacted, hignored⟩ := startCommand s d
  by_cases hstart : d.getLsbD 0 = true ∧ s.busy = false
  · obtain ⟨hd, hb⟩ := hstart
    obtain rfl := Host.Outcome.next.inj (h.symm.trans (hacted hd hb))
    exact .inr ⟨hd, hb, rfl⟩
  · rw [not_and_or, Bool.not_eq_true, Bool.not_eq_false] at hstart
    obtain rfl := Host.Outcome.next.inj (h.symm.trans (hignored hstart))
    exact .inl rfl

/-- What an instruction does to the flags: nothing, unless it is FINISH or a START acted on. -/
theorem exec_flags {i : Instr} {s t : State} (h : exec i s = .next t) :
    t.flags = s.flags ∨
      (i = .finish ∧ t.flags = ⟨false, true, s.errRounds, s.errIters⟩) ∨
      ∃ d, i = .wrCtrl d ∧ d.getLsbD 0 = true ∧ s.busy = false ∧ t.flags = startFlags s := by
  cases hbus : isBusInstr i with
  | false =>
    cases microStep_of_exec hbus h with
    | finish => exact .inr (.inl ⟨rfl, rfl⟩)
    | _ => exact .inl rfl
  | true =>
    rcases readInstr_or_writeInstr_of_isBusInstr hbus with ⟨r, rfl⟩ | ⟨r, d, rfl⟩
    · rw [exec_readInstr] at h
      cases h
      exact .inl rfl
    · cases r with
      | ctrl => exact (exec_wrCtrl_flags h).imp_right fun hstart => .inr ⟨d, rfl, hstart⟩
      | status | result n => cases h; exact .inl rfl
      | roundCount | iterCount | key n | block n => cases h; exact .inl (writeConfig_flags _ d s)

/-- Settles O28: the three cases of `exec_flags`, clause by clause. -/
theorem statusBitsChangeOnlyAsListed : Obligations.StatusBitsChangeOnlyAsListed := by
  intro i s t h
  rcases exec_flags h with hflags | ⟨rfl, hflags⟩ | ⟨d, rfl, hd, hb, hflags⟩ <;>
    simp only [State.flags, startFlags, Flags.mk.injEq] at hflags <;>
    obtain ⟨hbusy, hdone, herrRounds, herrIters⟩ := hflags
  · simp +contextual [hbusy, hdone, herrRounds, herrIters]
  · simp +contextual [hbusy, hdone, herrRounds, herrIters]
  · rw [hbusy, hdone, herrRounds, herrIters]
    simp only [decide_eq_true_eq, decide_eq_false_iff_not, not_lt]
    exact ⟨fun _ hvalid => ⟨d, rfl, hd, hb, hvalid⟩, fun hrun => (by simp [hb] at hrun), fun _ hset => (by cases hset),
      fun _ _ => ⟨d, rfl, hd, hb⟩, fun _ hbad => ⟨d, rfl, hd, hb, hbad⟩, fun _ hgood => ⟨d, rfl, hd, hb, hgood⟩,
      fun _ hbad => ⟨d, rfl, hd, hb, hbad⟩, fun _ hgood => ⟨d, rfl, hd, hb, hgood⟩⟩

end Sys2Proof

/-! The length of a run (43_round_controller.md R175): how many controller steps are left at each position, and that
every micro-operation takes one of them. -/

namespace Sys2Proof

open Machine

/-! ## Controller steps left at a position -/

/-- Steps after iteration `i`: the later iterations and FINISH. -/
def stepsAfterIteration (R N i : Nat) : Nat := (N - i) * (4 * R + 3) + 1

/-- From ARK of round `j` to the end of its iteration: ARK itself and four steps for each later round but the last,
which has no MIXCOL. -/
def stepsFromArk (R j : Nat) : Nat := if j < R then 4 * (R - j) else 1

/-- Steps left, in round `j` of iteration `i`, with the controller at code `c`. -/
def stepsAt (R N i j : Nat) (c : StateCode) : Nat :=
  if c = csIdle then 0
  else if c = csLoad then runSteps R N
  else if c = csChain then 4 * R + 3 + stepsAfterIteration R N i
  else if c = csSnap then 4 * R + 2 + stepsAfterIteration R N i
  else if c = csKinit then 4 * R + 1 + stepsAfterIteration R N i
  else if c = csWhiten then 4 * R + stepsAfterIteration R N i
  else if c = csSubshift then 4 * (R - j) + 3 + stepsAfterIteration R N i
  else if c = csMixcol then stepsFromArk R j + 2 + stepsAfterIteration R N i
  else if c = csKexp then stepsFromArk R j + 1 + stepsAfterIteration R N i
  else if c = csArk then stepsFromArk R j + stepsAfterIteration R N i
  else 1

section

variable (R N i j : Nat)

@[simp] theorem stepsAt_idle : stepsAt R N i j csIdle = 0 := rfl
@[simp] theorem stepsAt_load : stepsAt R N i j csLoad = runSteps R N := rfl
@[simp] theorem stepsAt_chain : stepsAt R N i j csChain = 4 * R + 3 + stepsAfterIteration R N i := rfl
@[simp] theorem stepsAt_snap : stepsAt R N i j csSnap = 4 * R + 2 + stepsAfterIteration R N i := rfl
@[simp] theorem stepsAt_kinit : stepsAt R N i j csKinit = 4 * R + 1 + stepsAfterIteration R N i := rfl
@[simp] theorem stepsAt_whiten : stepsAt R N i j csWhiten = 4 * R + stepsAfterIteration R N i := rfl
@[simp] theorem stepsAt_subshift : stepsAt R N i j csSubshift = 4 * (R - j) + 3 + stepsAfterIteration R N i := rfl
@[simp] theorem stepsAt_mixcol : stepsAt R N i j csMixcol = stepsFromArk R j + 2 + stepsAfterIteration R N i := rfl
@[simp] theorem stepsAt_kexp : stepsAt R N i j csKexp = stepsFromArk R j + 1 + stepsAfterIteration R N i := rfl
@[simp] theorem stepsAt_ark : stepsAt R N i j csArk = stepsFromArk R j + stepsAfterIteration R N i := rfl
@[simp] theorem stepsAt_finish : stepsAt R N i j csFinish = 1 := rfl

theorem stepsFromArk_inner {R j : Nat} (h : j < R) : stepsFromArk R j = 4 * (R - j) := if_pos h

theorem stepsFromArk_last {R j : Nat} (h : ¬ j < R) : stepsFromArk R j = 1 := if_neg h

/-- An iteration takes `4R+3` steps, LOAD or CHAIN the first of them (R175). -/
theorem stepsAfterIteration_eq {R N i : Nat} (h : i < N) :
    stepsAfterIteration R N i = 4 * R + 3 + stepsAfterIteration R N (i + 1) := by
  have hsplit : N - i = N - (i + 1) + 1 := by omega
  rw [stepsAfterIteration, stepsAfterIteration, hsplit, Nat.succ_mul]
  omega

theorem stepsAfterIteration_last : stepsAfterIteration R N N = 1 := by
  rw [stepsAfterIteration, Nat.sub_self, Nat.zero_mul]

/-- A run is its iterations and FINISH. -/
theorem runSteps_eq : runSteps R N = stepsAfterIteration R N 0 := rfl

end

def stepsLeft (s : State) : Nat := stepsAt s.roundCount.toNat s.iterCount.toNat s.iter.toNat s.round.toNat s.cs

/-! ## One step fewer at every step -/

/-- Every micro-operation of a run takes one of the steps left (R171, R175). -/
theorem Inv.stepsLeft_microStep {i : Instr} {s t : State} (h : Inv s) (hb : s.busy = true) (hi : encode i = .uop s.cs)
    (hstep : MicroStep i s t) : stepsLeft t + 1 = stepsLeft s := by
  have hcs {c : StateCode} (hc : encode i = .uop c) : s.cs = c := cs_of_encode hi hc
  obtain ⟨hR, hN⟩ := h.counts_pos hb
  unfold stepsLeft
  cases hstep with
  | idle => exact absurd (hcs rfl) (h.busyIffRunning.mp hb)
  | load =>
    rw [hcs rfl, stepsAt_load, stepsAt_snap, runSteps_eq, stepsAfterIteration_eq hN]
    exact Nat.add_right_comm _ _ _
  | chain | snap | kinit =>
    rw [hcs rfl]
    exact Nat.add_right_comm _ _ _
  | whiten =>
    have hone : (1#32).toNat = 1 := rfl
    simp only [hcs rfl, stepsAt_whiten, stepsAt_subshift, hone]
    omega
  | subshiftInner hlt =>
    simp only [hcs rfl, stepsAt_subshift, stepsAt_mixcol, stepsFromArk_inner (BitVec.lt_def.mp hlt)]
    omega
  | subshiftFinal hge =>
    have hlast := BitVec.le_def.mp (BitVec.not_lt.mp hge)
    simp only [hcs rfl, stepsAt_subshift, stepsAt_kexp, stepsFromArk_last hlast.not_gt]
    omega
  | mixcol | kexp =>
    rw [hcs rfl]
    exact Nat.add_right_comm _ _ _
  | arkNextRound hlt =>
    have hlt := BitVec.lt_def.mp hlt
    simp only [hcs rfl, stepsAt_ark, stepsAt_subshift, stepsFromArk_inner hlt, toNat_add_one_of_lt hlt]
    omega
  | arkNextIteration hge hlt =>
    have hlast := BitVec.le_def.mp (BitVec.not_lt.mp hge)
    have hlt := BitVec.lt_def.mp hlt
    simp only [hcs rfl, stepsAt_ark, stepsAt_chain, stepsFromArk_last hlast.not_gt, toNat_add_one_of_lt hlt,
      stepsAfterIteration_eq hlt]
    omega
  | arkFinish hroundGe hiterGe =>
    have hlast := BitVec.le_def.mp (BitVec.not_lt.mp hroundGe)
    have hiter : s.iter = s.iterCount := oneTo.eq_of_not_lt (h.iterInRange hb (hcs rfl ▸ by decide)) hiterGe
    simp only [hcs rfl, stepsAt_ark, stepsAt_finish, stepsFromArk_last hlast.not_gt, hiter, stepsAfterIteration_last]
  | finish => rw [hcs rfl, stepsAt_idle, stepsAt_finish]

/-! ## Bounds -/

theorem stepsFromArk_le {R : Nat} (j : Nat) (hR : 1 ≤ R) : stepsFromArk R j ≤ 4 * R := by
  unfold stepsFromArk
  split <;> omega

/-- What is left from an iteration on is at most a whole run. -/
theorem iteration_le_runSteps {R N i : Nat} (hone : 1 ≤ i) (hle : i ≤ N) :
    4 * R + 3 + stepsAfterIteration R N i ≤ runSteps R N := by
  obtain ⟨i, rfl⟩ := Nat.exists_eq_add_of_le' hone
  rw [← stepsAfterIteration_eq hle, runSteps_eq]
  exact Nat.add_le_add_right (Nat.mul_le_mul_right _ (Nat.sub_le_sub_left (Nat.zero_le i) N)) 1

theorem RunPosition.stepsAt_le {R N iter round : Word} {cs : StateCode} (h : RunPosition R N iter round cs)
    (hR : 1 ≤ R.toNat) : stepsAt R.toNat N.toNat iter.toNat round.toNat cs ≤ runSteps R.toNat N.toNat := by
  have hark := stepsFromArk_le round.toNat hR
  cases h with
  | load => exact le_rfl
  | finish => exact Nat.le_add_left 1 _
  | _ hiter =>
    have hle := iteration_le_runSteps (R := R.toNat) hiter.1 hiter.2
    simp only [stepsAt_chain, stepsAt_snap, stepsAt_kinit, stepsAt_whiten, stepsAt_subshift, stepsAt_mixcol,
      stepsAt_kexp, stepsAt_ark]
    omega

/-- No more steps are left than a whole run takes. -/
theorem Inv.stepsLeft_le {s : State} (h : Inv s) (hb : s.busy = true) :
    stepsLeft s ≤ runSteps s.roundCount.toNat s.iterCount.toNat :=
  (h.position hb).stepsAt_le (h.counts_pos hb).1

theorem RunPosition.stepsAt_pos {R N iter round : Word} {cs : StateCode} (h : RunPosition R N iter round cs) :
    1 ≤ stepsAt R.toNat N.toNat iter.toNat round.toNat cs := by
  cases h <;> exact Nat.le_add_left 1 _

/-- A state of a run has a step left. -/
theorem Inv.stepsLeft_pos {s : State} (h : Inv s) (hb : s.busy = true) : 1 ≤ stepsLeft s :=
  (h.position hb).stepsAt_pos

end Sys2Proof

/-! Runs (43_round_controller.md R175 to R179): a state of a run after `n` controller turns is carried along an
interleaving, until the last step leaves the result of Run. -/

namespace Sys2Proof

open Machine

/-! ## One controller turn of a run -/

theorem Machine.MicroStep.configuration_eq {i : Instr} {s t : State} (h : MicroStep i s t) :
    t.configuration = s.configuration := by
  cases h <;> rfl

/-- A run is over with FINISH and not before (R172). -/
theorem Machine.MicroStep.busy_or_finish {i : Instr} {s t : State} (h : MicroStep i s t) :
    t.busy = s.busy ∨ i = .finish ∧ t = { s with result := pack s.w, done := true, busy := false, cs := csIdle } := by
  cases h with
  | finish => exact .inr ⟨rfl, rfl⟩
  | _ => exact .inl rfl

/-- A controller turn of a run takes one of its steps, and goes on with the run unless it was the last, FINISH. -/
theorem Inv.controllerTurn {s : State} (h : Inv s) (hb : s.busy = true) :
    ∃ i t, encode i = .uop s.cs ∧ MicroStep i s t ∧ Machine.controllerTurn s = .next t ∧
      (t.busy = true ∧ stepsLeft t + 1 = stepsLeft s ∨
        stepsLeft s = 1 ∧ s.cs = csFinish ∧
          t = { s with result := pack s.w, done := true, busy := false, cs := csIdle }) := by
  obtain ⟨i, t, hi, hturn, hstep⟩ := controllerTurn_microStep h.csLegal
  refine ⟨i, t, hi, hstep, hturn, ?_⟩
  have hleft := h.stepsLeft_microStep hb hi hstep
  rcases hstep.busy_or_finish with hbusy | ⟨rfl, rfl⟩
  · exact .inl ⟨hbusy.trans hb, hleft⟩
  · exact .inr ⟨hleft.symm, cs_of_encode hi rfl, rfl⟩

/-! ## Running and finished -/

/-- The number of controller steps of a run of this configuration (R175). -/
def Machine.Configuration.steps (C : Configuration) : Nat := runSteps C.roundCount.toNat C.iterCount.toNat

/-- The `RESULT` registers after a run of this configuration (R172, R174). -/
def Machine.Configuration.output (C : Configuration) : Four Word :=
  pack (runBlocks (unpack C.key) (unpack C.block) C.roundCount.toNat C.iterCount.toNat)

/-- A run of configuration `C` of which `n` controller steps are taken and some are left. -/
structure Running (C : Configuration) (n : Nat) (s : State) : Prop where
  inv : Inv s
  runInv : RunInv s
  busy : s.busy = true
  configuration : s.configuration = C
  steps : n + stepsLeft s = C.steps

/-- The engine after a run of configuration `C`. -/
structure Finished (C : Configuration) (s : State) : Prop where
  inv : Inv s
  idle : s.cs = csIdle
  done : s.done = true
  configuration : s.configuration = C
  result : s.result = C.output

/-- `n` controller turns after START the run is going on, or it is over and had no more than `n` steps. -/
def Progress (C : Configuration) (n : Nat) (s : State) : Prop := Running C n s ∨ C.steps ≤ n ∧ Finished C s

section

variable {C : Configuration} {n : Nat} {s : State}

theorem Running.lt_steps (h : Running C n s) : n < C.steps := by
  have hpos := h.inv.stepsLeft_pos h.busy
  have hsteps := h.steps
  omega

theorem Running.withTurns (h : Running C n s) (ts : List Turn) : Running C n { s with turns := ts } where
  inv := h.inv.withTurns ts
  runInv := h.runInv.withTurns ts
  busy := h.busy
  configuration := h.configuration
  steps := h.steps

theorem Running.withReply (h : Running C n s) (v : Option Word) (k : Nat) : Running C n (s.withReply v k) where
  inv := h.inv.withReply v k
  runInv := h.runInv.withReply v k
  busy := h.busy
  configuration := h.configuration
  steps := h.steps

theorem Finished.withTurns (h : Finished C s) (ts : List Turn) : Finished C { s with turns := ts } where
  inv := h.inv.withTurns ts
  idle := h.idle
  done := h.done
  configuration := h.configuration
  result := h.result

theorem Finished.withReply (h : Finished C s) (v : Option Word) (k : Nat) : Finished C (s.withReply v k) where
  inv := h.inv.withReply v k
  idle := h.idle
  done := h.done
  configuration := h.configuration
  result := h.result

theorem Progress.withTurns (h : Progress C n s) (ts : List Turn) : Progress C n { s with turns := ts } :=
  h.imp (·.withTurns ts) (And.imp_right (·.withTurns ts))

theorem Progress.inv (h : Progress C n s) : Inv s := h.elim (·.inv) (·.2.inv)

theorem Progress.running (h : Progress C n s) (hn : n < C.steps) : Running C n s :=
  h.resolve_right fun hover => absurd hn hover.1.not_gt

theorem Progress.finished (h : Progress C n s) (hn : C.steps ≤ n) : Finished C s :=
  h.elim (fun hrun => absurd hrun.lt_steps hn.not_gt) (·.2)

/-- An accepted START begins a run of the configuration it finds (R191). -/
theorem running_of_start {d : Word} (h : Inv s) (hstart : startAccepted d s) :
    ∃ a, exec (.wrCtrl d) s = .next a ∧ a.cs = csLoad ∧ Running s.configuration 0 a := by
  obtain ⟨hd, hb, hvalid⟩ := hstart
  have hinv : Inv (answerWrite s) := h.withReply none s.freeIx
  refine ⟨_, congrArg Host.Outcome.next (writeCtrl_accepted hd hb hvalid), rfl, ?_⟩
  exact {
    inv := hinv.acceptStart hvalid
    runInv := DatapathStage.runInv .load rfl
    busy := rfl
    configuration := rfl
    steps := Nat.zero_add _ }

/-- FINISH leaves what `RunInv` says `W` holds (R172, R174). -/
theorem Running.finish (h : Running C n s) (hcs : s.cs = csFinish)
    (hinv : Inv { s with result := pack s.w, done := true, busy := false, cs := csIdle }) :
    Finished C { s with result := pack s.w, done := true, busy := false, cs := csIdle } where
  inv := hinv
  idle := rfl
  done := rfl
  configuration := h.configuration
  result := by
    obtain rfl := h.configuration
    exact congrArg pack (h.runInv.atFinish hcs)

theorem Running.controllerTurn (h : Running C n s) :
    ∃ t, Machine.controllerTurn s = .next t ∧ t.turns = s.turns ∧ Progress C (n + 1) t := by
  obtain ⟨i, t, hi, hstep, hturn, hcases⟩ := h.inv.controllerTurn h.busy
  have hinv := h.inv.microStep hi hstep
  have hsteps := h.steps
  refine ⟨t, hturn, hstep.turns_eq, ?_⟩
  rcases hcases with ⟨hbusy, hleft⟩ | ⟨hlast, hcs, rfl⟩
  · exact .inl {
      inv := hinv
      runInv := h.runInv.microStep h.inv hi hstep
      busy := hbusy
      configuration := hstep.configuration_eq.trans h.configuration
      steps := by omega }
  · exact .inr ⟨by omega, h.finish hcs hinv⟩

theorem Progress.controllerTurn (h : Progress C n s) :
    ∃ t, Machine.controllerTurn s = .next t ∧ t.turns = s.turns ∧ Progress C (n + 1) t := by
  rcases h with hrun | ⟨hover, hfin⟩
  · exact hrun.controllerTurn
  · exact ⟨s, controllerTurn_of_idle hfin.idle, rfl, .inr ⟨hover.trans (Nat.le_succ n), hfin⟩⟩

/-- During a run a bus cycle changes only what it returns (R193). -/
theorem Running.hostTurn (h : Running C n s) {c : BusCycle} (hrst : c.rstN = true) :
    ∃ t, Machine.hostTurn c s = .next t ∧ t.turns = s.turns ∧ Running C n t := by
  obtain ⟨t, ht, hstep⟩ := performCycle_busStep c s
  refine ⟨t, (hostTurn_of_legal hrst h.inv.csLegal).trans ht, hstep.turns_eq, ?_⟩
  have hb := h.busy
  cases hstep with
  | quiet v k => exact h.withReply v k
  | store _ _ _ _ hidle | reject _ _ hidle | accept _ _ hidle => rw [hb] at hidle; cases hidle

end

/-! ## Interleavings -/

section

variable {M : Host.Core} {k m n : Nat} {s t u : M.State}

/-- The next step of a run and the ones after it. -/
theorem run_of_step (hstep : M.step s = .next t) (hrun : M.run k t = .next u) : M.run (k + 1) s = .next u := by
  rw [Host.Core.run, hstep]
  exact hrun

theorem step_of_run (hrun : M.run (k + 1) s = .next u) : ∃ t, M.step s = .next t ∧ M.run k t = .next u := by
  rw [Host.Core.run] at hrun
  split at hrun
  · next t hstep => exact ⟨t, hstep, hrun⟩
  · cases hrun
  · cases hrun

/-- Steps and then further steps. -/
theorem run_append (hfirst : M.run m s = .next t) (hthen : M.run n t = .next u) : M.run (m + n) s = .next u := by
  induction m generalizing s with
  | zero =>
    obtain rfl := Host.Outcome.next.inj hfirst
    rwa [Nat.zero_add]
  | succ m ih =>
    obtain ⟨v, hstep, hrun⟩ := step_of_run hfirst
    rw [Nat.succ_add]
    exact run_of_step hstep (ih hrun)

end

section

variable {C : Configuration} {n : Nat} {s : State} {rest : List Turn}

/-- An interleaving without a reset that has too few controller turns leaves the run going on (R175). -/
theorem Running.run {ts : List Turn} (h : Running C n s) (hturns : s.turns = ts ++ rest) (hreset : noReset ts = true)
    (hfew : n + controllerTurns ts < C.steps) :
    ∃ t, Host.Core.run Sys2Proof.core ts.length s = .next t ∧ t.turns = rest ∧
      Running C (n + controllerTurns ts) t := by
  induction ts generalizing n s with
  | nil => exact ⟨s, rfl, hturns, h⟩
  | cons turn ts ih =>
    have hreset' : noReset ts = true := (Bool.and_eq_true_iff.mp hreset).2
    cases turn with
    | controller =>
      have hcount : n + controllerTurns (.controller :: ts) = n + 1 + controllerTurns ts := by
        rw [controllerTurns, List.count_cons_self, ← controllerTurns]; omega
      rw [hcount] at hfew ⊢
      obtain ⟨t, ht, htTurns, hprogress⟩ := (h.withTurns (ts ++ rest)).controllerTurn
      obtain ⟨u, hu, huTurns, hrunning⟩ := ih (hprogress.running (by omega)) htTurns hreset' hfew
      exact ⟨u, run_of_step ((step_of_controller hturns).trans ht) hu, huTurns, hrunning⟩
    | host c =>
      have hcount : controllerTurns (.host c :: ts) = controllerTurns ts := List.count_cons_of_ne (by simp)
      rw [hcount] at hfew ⊢
      have hrst : c.rstN = true := by simpa [noReset, isReset] using (Bool.and_eq_true_iff.mp hreset).1
      obtain ⟨t, ht, htTurns, hrunning⟩ := (h.withTurns (ts ++ rest)).hostTurn hrst
      obtain ⟨u, hu, huTurns, hrunning⟩ := ih hrunning htTurns hreset' hfew
      exact ⟨u, run_of_step ((step_of_host hturns).trans ht) hu, huTurns, hrunning⟩

/-- Controller turns one after another, listed. -/
theorem Progress.run_controller {k : Nat} (h : Progress C n s)
    (hturns : s.turns = List.replicate k .controller ++ rest) :
    ∃ t, Host.Core.run Sys2Proof.core k s = .next t ∧ t.turns = rest ∧ Progress C (n + k) t := by
  induction k generalizing n s with
  | zero => exact ⟨s, rfl, hturns, h⟩
  | succ k ih =>
    obtain ⟨t, ht, htTurns, hprogress⟩ := (h.withTurns (List.replicate k .controller ++ rest)).controllerTurn
    obtain ⟨u, hu, huTurns, hprogress⟩ := ih hprogress htTurns
    rw [Nat.add_right_comm] at hprogress
    exact ⟨u, run_of_step ((step_of_controller hturns).trans ht) hu, huTurns, hprogress⟩

/-- The same turns in a script (20_memory.md R70). -/
theorem Progress.advance {k : Nat} (h : Progress C n s) :
    ∃ t, Machine.advance k s = .next t ∧ Progress C (n + k) t := by
  induction k generalizing n s with
  | zero => exact ⟨s, rfl, h⟩
  | succ k ih =>
    obtain ⟨t, ht, -, hprogress⟩ := h.controllerTurn
    obtain ⟨u, hu, hprogress⟩ := ih hprogress
    rw [Nat.add_right_comm] at hprogress
    exact ⟨u, by rw [advance_succ, ht, andThen_next, hu], hprogress⟩

theorem Running.statusWord (h : Running C n s) : Machine.statusWord s = 0x00000001#32 := h.inv.statusWord_of_busy h.busy

theorem Finished.statusWord (h : Finished C s) : Machine.statusWord s = 0x00000002#32 := h.inv.statusWord_of_done h.done

theorem Progress.statusWord (h : Progress C n s) :
    Machine.statusWord s = if n < C.steps then 0x00000001#32 else 0x00000002#32 := by
  split
  · next hn => exact (h.running hn).statusWord
  · next hn => exact (h.finished (Nat.le_of_not_lt hn)).statusWord

/-- The last controller turn of an interleaving that gives a run all its steps (R175). -/
theorem Running.run_to_end {ts : List Turn} (h : Running C 0 s) (hturns : s.turns = ts ++ [.controller])
    (hreset : noReset ts = true) (hall : controllerTurns ts + 1 = C.steps) :
    ∃ t, Host.Core.run Sys2Proof.core (ts.length + 1) s = .next t ∧ Finished C t := by
  obtain ⟨t, ht, htTurns, hrunning⟩ := h.run hturns hreset (by omega)
  obtain ⟨u, hu, -, hprogress⟩ := (hrunning.withTurns []).controllerTurn
  exact ⟨u, run_append ht (run_of_step ((step_of_controller htTurns).trans hu) rfl), hprogress.finished (by omega)⟩

end

/-! ## The statements on runs -/

/-- Settles O54: the run that START begins is carried along the interleaving, and its last step finishes it. -/
theorem runUnderEveryInterleaving : Obligations.RunUnderEveryInterleaving := by
  intro s d h hstart
  obtain ⟨a, ha, hcs, hrun⟩ := running_of_start h hstart
  refine ⟨a, ha, hcs, fun ts hreset hfew => ?_, fun ts hreset hall => ?_⟩
  · obtain ⟨t, ht, -, hrunning⟩ :=
      (hrun.withTurns ts).run (ts := ts) (rest := []) (List.append_nil ts).symm hreset (by rwa [Nat.zero_add])
    exact ⟨t, ht, hrunning.inv.busyIffRunning.mp hrunning.busy, hrunning.statusWord⟩
  · obtain ⟨t, ht, hfinished⟩ := (hrun.withTurns (ts ++ [.controller])).run_to_end rfl hreset hall
    have hconfiguration := hfinished.configuration
    simp only [State.configuration, Configuration.mk.injEq] at hconfiguration
    exact ⟨t, ht, hfinished.idle, hfinished.statusWord, hfinished.result, hconfiguration⟩

/-- However its run is interleaved, an accepted START ends with the output of the configuration. -/
theorem result_of_run {s a t : State} {d : Word} {ts : List Turn} (h : Inv s) (hstart : startAccepted d s)
    (hreset : noReset ts = true) (hall : controllerTurns ts + 1 = s.configuration.steps)
    (ha : exec (.wrCtrl d) s = .next a)
    (ht : Host.Core.run Sys2Proof.core (ts.length + 1) { a with turns := ts ++ [.controller] } = .next t) :
    t.result = s.configuration.output := by
  obtain ⟨b, hb, -, hrun⟩ := running_of_start h hstart
  obtain rfl := Host.Outcome.next.inj (ha.symm.trans hb)
  obtain ⟨u, hu, hfinished⟩ := (hrun.withTurns (ts ++ [.controller])).run_to_end rfl hreset hall
  obtain rfl := Host.Outcome.next.inj (ht.symm.trans hu)
  exact hfinished.result

/-- Settles O55: each run ends with the output of its configuration, which is the same. -/
theorem resultDependsOnlyOnConfiguration : Obligations.ResultDependsOnlyOnConfiguration := by
  intro s s' d d' ts ts' a a' t t' h h' hstart hstart' hR hN hkey hblock hreset hreset' hall hall' ha ha' ht ht'
  have hsame : s'.configuration = s.configuration := by
    rw [State.configuration, hR, hN, hkey, hblock]; rfl
  have hresult := result_of_run h hstart hreset hall ha ht
  have hresult' := result_of_run h' hstart' hreset' (hsame ▸ hall') ha' ht'
  rw [hresult, hresult', hsame]

/-- With the host silent a run reaches its end in as many steps as it has left (R179). -/
theorem Inv.run_silent {k : Nat} {s : State} (h : Inv s) (hb : s.busy = true) (hturns : s.turns = [])
    (hleft : stepsLeft s = k + 1) :
    ∃ t, Host.Core.run Sys2Proof.core (k + 1) s = .next t ∧ t.cs = csIdle ∧ t.done = true ∧ t.busy = false := by
  induction k generalizing s with
  | zero =>
    obtain ⟨i, t, hi, hstep, hturn, ⟨hbusy, hfewer⟩ | ⟨-, -, rfl⟩⟩ := h.controllerTurn hb
    · have hpos := (h.microStep hi hstep).stepsLeft_pos hbusy
      omega
    · exact ⟨_, run_of_step ((step_of_nil hturns).trans hturn) rfl, rfl, rfl, rfl⟩
  | succ k ih =>
    obtain ⟨i, t, hi, hstep, hturn, ⟨hbusy, hfewer⟩ | ⟨hlast, -⟩⟩ := h.controllerTurn hb
    · obtain ⟨u, hu, hend⟩ := ih (h.microStep hi hstep) hbusy (hstep.turns_eq.trans hturns) (by omega)
      exact ⟨u, run_of_step ((step_of_nil hturns).trans hturn) hu, hend⟩
    · omega

/-- Settles O57: the number of steps is that of the steps left, at most a whole run's. -/
theorem everyRunTerminates : Obligations.EveryRunTerminates := by
  intro s h hb hturns
  obtain ⟨k, hk⟩ := Nat.exists_eq_add_of_le' (h.stepsLeft_pos hb)
  obtain ⟨t, ht, hend⟩ := h.run_silent hb hturns hk
  exact ⟨k + 1, t, Nat.le_add_left 1 k, hk ▸ h.stepsLeft_le hb, ht, hend⟩

/-! ## Polling -/

/-- `WAIT` ends on the value of `STATUS` that a finished run leaves, and not on that of a run (R89). -/
theorem waitEnds_status (n total : Nat) :
    waitEnds (if n < total then 0x00000001#32 else 0x00000002#32) = decide (total ≤ n) := by
  by_cases h : n < total
  · rw [if_pos h, decide_eq_false h.not_ge]; rfl
  · rw [if_neg h, decide_eq_true (Nat.le_of_not_lt h)]; rfl

/-- The host's read of `STATUS`, as a turn (R83). -/
def readStatusTurn : Turn := .host (cycleOfWord (busWordOf false (regOffset .status) 0x00000000#32))

/-- Settles O58: after `n` controller turns the run is over or not, and `STATUS` says which. -/
theorem pollingStatusSeesTheEnd : Obligations.PollingStatusSeesTheEnd := by
  intro s d n h hstart
  obtain ⟨a, ha, -, hrun⟩ := running_of_start h hstart
  have hbegin : Progress s.configuration 0 { a with turns := List.replicate n .controller ++ [readStatusTurn] } :=
    .inl (hrun.withTurns _)
  obtain ⟨t, ht, htTurns, hprogress⟩ := hbegin.run_controller rfl
  rw [Nat.zero_add] at hprogress
  have hread : step t = .next (busRead .status { t with turns := [] }) :=
    (step_of_host htTurns).trans (transact_readInstr .status { t with turns := [] } hprogress.inv.csLegal)
  have hvalue := hprogress.statusWord
  exact ⟨a, readStatusTurn, busRead .status { t with turns := [] }, statusWord t, ha, rfl,
    run_append ht (run_of_step hread rfl), rfl, hvalue, by rw [hvalue]; exact waitEnds_status n _⟩

end Sys2Proof

/-! The loop of `POLL` and `WAIT` (30_encoding.md R89) under an interleaving with the controller. -/

namespace Sys2Proof

open Machine

/-! ## One turn of the loop -/

/-- Where the read meets the condition, the loop ends with it. -/
theorem runLoop_of_met {reg : Reg} {mask value : Word} {gap : Nat} {gaps : List Nat} {s t : State}
    (ht : advance gap s = .next t) (hlegal : StateCode.legal t.cs = true)
    (hmet : pollEnds mask value (readReg reg t) = true) :
    runLoop (readInstr reg) mask value (gap :: gaps) s = .next ⟨busRead reg t, [readInstr reg], true⟩ := by
  have hends : (busRead reg t).busRdata.any (pollEnds mask value) = true := hmet
  simp only [runLoop, issueThen, ht, andThen_next, transact_readInstr reg t hlegal, hends, if_true]

/-- Where it does not, the loop goes on from the state after the read. -/
theorem runLoop_of_not_met {reg : Reg} {mask value : Word} {gap : Nat} {gaps : List Nat} {s t : State} {q : LineRun}
    (ht : advance gap s = .next t) (hlegal : StateCode.legal t.cs = true)
    (hmet : pollEnds mask value (readReg reg t) = false)
    (hq : runLoop (readInstr reg) mask value gaps (busRead reg t) = .next q) :
    runLoop (readInstr reg) mask value (gap :: gaps) s = .next { q with issued := readInstr reg :: q.issued } := by
  have hends : (busRead reg t).busRdata.any (pollEnds mask value) = false := hmet
  simp only [runLoop, issueThen, ht, andThen_next, transact_readInstr reg t hlegal, hends, Bool.false_eq_true, if_false,
    hq]

/-- A read does not change what any register reads as. -/
@[simp] theorem readReg_busRead (r r' : Reg) (s : State) : readReg r (busRead r' s) = readReg r s := by
  cases r <;> rfl

/-! ## `POLL` -/

/-- What R89 says of a loop that reads `reg` until `(value read & mask) = value`, run from `s` with `gaps` before its
reads. -/
structure PollOutcome (reg : Reg) (mask value : Word) (gaps : List Nat) (s : State) (r : LineRun) : Prop where
  reads : r.issued = List.replicate r.issued.length (readInstr reg)
  unread : r.issued = [] → r.state = s
  answered : r.issued ≠ [] → r.state.busRdata = some (readReg reg r.state)
  ended_iff : r.ended = true ↔ r.issued ≠ [] ∧ pollEnds mask value (readReg reg r.state) = true
  exhausted : r.ended = false → r.issued.length = gaps.length
  shorter : ∀ k < r.issued.length, ∃ q, runLoop (readInstr reg) mask value (gaps.take k) s = .next q ∧
    q.issued.length = k ∧ q.ended = false

/-- The loop has that outcome from every state with a legal `cs` (R89). -/
theorem runLoop_outcome (reg : Reg) (mask value : Word) (gaps : List Nat) {s : State}
    (hs : StateCode.legal s.cs = true) :
    ∃ r, runLoop (readInstr reg) mask value gaps s = .next r ∧ PollOutcome reg mask value gaps s r := by
  induction gaps generalizing s with
  | nil =>
    exact ⟨⟨s, [], false⟩, rfl, {
      reads := rfl
      unread := fun _ => rfl
      answered := fun hne => absurd rfl hne
      ended_iff := by simp
      exhausted := fun _ => rfl
      shorter := fun k hk => absurd hk (Nat.not_lt_zero k) }⟩
  | cons gap gaps ih =>
    obtain ⟨t, ht, hlegal⟩ := advance_legal gap s hs
    have hnone : runLoop (readInstr reg) mask value [] s = .next ⟨s, [], false⟩ := rfl
    cases hmet : pollEnds mask value (readReg reg t) with
    | true =>
      refine ⟨_, runLoop_of_met ht hlegal hmet, {
        reads := rfl
        unread := fun hnil => by cases hnil
        answered := fun _ => congrArg some (readReg_busRead reg reg t).symm
        ended_iff := by simp [hmet]
        exhausted := fun hended => by cases hended
        shorter := fun k hk => ?_ }⟩
      obtain rfl : k = 0 := Nat.lt_one_iff.mp hk
      exact ⟨_, hnone, rfl, rfl⟩
    | false =>
      obtain ⟨q, hq, hout⟩ := ih (s := busRead reg t) hlegal
      refine ⟨_, runLoop_of_not_met ht hlegal hmet hq, {
        reads := by rw [List.length_cons, List.replicate_succ, ← hout.reads]
        unread := fun hnil => by cases hnil
        answered := fun _ => ?_
        ended_iff := ?_
        exhausted := fun hended => congrArg (· + 1) (hout.exhausted hended)
        shorter := fun k hk => ?_ }⟩
      · by_cases hnil : q.issued = []
        · rw [hout.unread hnil, readReg_busRead]; rfl
        · exact hout.answered hnil
      · rw [hout.ended_iff]
        by_cases hnil : q.issued = []
        · simp [hnil, hout.unread hnil, hmet]
        · simp [hnil]
      · cases k with
        | zero => exact ⟨_, hnone, rfl, rfl⟩
        | succ k =>
          obtain ⟨p, hp, hlength, hended⟩ := hout.shorter k (Nat.lt_of_succ_lt_succ hk)
          exact ⟨_, runLoop_of_not_met ht hlegal hmet hp, congrArg (· + 1) hlength, hended⟩

/-- A number that fits 32 bits is the value of its word (R88). -/
theorem toNat_of_imm32Fits {v : Nat} (h : imm32Fits v = true) : (BitVec.ofNat 32 v).toNat = v := by
  have hle : v ≤ 4294967295 := by simpa [imm32Fits] using h
  exact Nat.mod_eq_of_lt (Nat.lt_succ_of_le hle)

/-- The condition of R89 on numbers that fit. -/
theorem pollEnds_iff {mask value : Nat} (hmask : imm32Fits mask = true) (hvalue : imm32Fits value = true)
    (read : Word) :
    pollEnds (BitVec.ofNat 32 mask) (BitVec.ofNat 32 value) read = true ↔ read.toNat &&& mask = value := by
  rw [pollEnds, beq_iff_eq, ← BitVec.toNat_inj, BitVec.toNat_and, toNat_of_imm32Fits hmask, toNat_of_imm32Fits hvalue]

theorem runLine_poll {reg : ScriptReg} {mask value : Nat} (hwf : (ScriptLine.poll reg mask value).wf = true)
    (gaps : List Nat) (s : State) :
    runLine (.poll reg mask value) gaps s =
      some (runLoop (readInstr (scriptReg reg)) (BitVec.ofNat 32 mask) (BitVec.ofNat 32 value) gaps s) :=
  if_pos hwf

/-- Settles O59: the outcome of the loop, with the condition on numbers; `WAIT` expands to such a loop. -/
theorem pollReadsUntilTheConditionHolds : Obligations.PollReadsUntilTheConditionHolds := by
  refine ⟨fun reg mask value gaps s hwf hs => ?_, fun _ _ => rfl⟩
  obtain ⟨r, hr, hout⟩ := runLoop_outcome (scriptReg reg) (BitVec.ofNat 32 mask) (BitVec.ofNat 32 value) gaps hs
  obtain ⟨hfits, hvalue⟩ := Bool.and_eq_true_iff.mp hwf
  obtain ⟨-, hmask⟩ := Bool.and_eq_true_iff.mp hfits
  refine ⟨r, (runLine_poll hwf gaps s).trans (congrArg some hr), hout.reads, hout.answered, ?_, hout.exhausted,
    fun k hk => ?_⟩
  · rw [hout.ended_iff, pollEnds_iff hmask hvalue]
  · obtain ⟨q, hq, hlength, hended⟩ := hout.shorter k hk
    exact ⟨q, (runLine_poll hwf _ s).trans (congrArg some hq), hlength, hended⟩

/-! ## `WAIT` after START -/

/-- `WAIT` is the loop that reads `STATUS` until `BUSY` = 0 (R89). -/
theorem runLine_wait (gaps : List Nat) (s : State) :
    runLine .wait gaps s = some (runLoop (readInstr .status) 0x00000001#32 0x00000000#32 gaps s) := rfl

/-- What `WAIT` has done in a run of configuration `C` of which `n` steps were taken before it. -/
structure WaitOutcome (C : Configuration) (n : Nat) (gaps : List Nat) (r : LineRun) : Prop where
  ended : r.ended = decide (C.steps ≤ n + gaps.sum)
  reads : ∀ k, k < r.issued.length ↔ k < gaps.length ∧ n + (gaps.take k).sum < C.steps
  finished : r.ended = true → r.state.busRdata = some 0x00000002#32 ∧ Finished C r.state

/-- The first read after the last step of the run sees `DONE` and ends the loop (R248). -/
theorem Running.wait {C : Configuration} {n : Nat} {s : State} (h : Running C n s) (gaps : List Nat) :
    ∃ r, runLoop (readInstr .status) 0x00000001#32 0x00000000#32 gaps s = .next r ∧ WaitOutcome C n gaps r := by
  induction gaps generalizing n s with
  | nil =>
    exact ⟨⟨s, [], false⟩, rfl, {
      ended := (decide_eq_false h.lt_steps.not_ge).symm
      reads := by simp
      finished := fun hended => by cases hended }⟩
  | cons gap gaps ih =>
    obtain ⟨t, ht, hprogress⟩ := (show Progress C n s from .inl h).advance (k := gap)
    have hlegal := hprogress.inv.csLegal
    have hn := h.lt_steps
    by_cases hover : C.steps ≤ n + gap
    · have hfinished := hprogress.finished hover
      have hmet : pollEnds 0x00000001#32 0x00000000#32 (readReg .status t) = true := by
        rw [readReg, hfinished.statusWord]; rfl
      refine ⟨_, runLoop_of_met ht hlegal hmet, {
        ended := (decide_eq_true (by rw [List.sum_cons]; omega)).symm
        reads := fun k => ?_
        finished := fun _ => ⟨congrArg some hfinished.statusWord, hfinished.withReply _ _⟩ }⟩
      cases k with
      | zero => simpa using hn
      | succ k =>
        simp only [List.length_singleton, List.take_succ_cons, List.sum_cons]
        omega
    · have hrunning := hprogress.running (Nat.lt_of_not_le hover)
      have hmet : pollEnds 0x00000001#32 0x00000000#32 (readReg .status t) = false := by
        rw [readReg, hrunning.statusWord]; rfl
      obtain ⟨q, hq, hout⟩ := ih (s := busRead .status t) (hrunning.withReply _ _)
      refine ⟨_, runLoop_of_not_met ht hlegal hmet hq, {
        ended := by rw [hout.ended, List.sum_cons, Nat.add_assoc]
        reads := fun k => ?_
        finished := hout.finished }⟩
      cases k with
      | zero => simpa using hn
      | succ k =>
        simp only [List.length_cons, List.take_succ_cons, List.sum_cons, Nat.add_lt_add_iff_right, hout.reads k,
          Nat.add_assoc]

/-- Settles O60: `WAIT` begins in the state that START leaves, with no step of the run taken. -/
theorem waitEndsWithTheResult : Obligations.WaitEndsWithTheResult := by
  intro s d gaps h hstart
  obtain ⟨a, ha, -, hrun⟩ := running_of_start h hstart
  obtain ⟨r, hr, hout⟩ := hrun.wait gaps
  refine ⟨a, r, ha, (runLine_wait gaps a).trans (congrArg some hr), ?_, fun k => ?_, fun hended => ?_⟩
  · rw [hout.ended, Nat.zero_add]; rfl
  · rw [hout.reads k, Nat.zero_add]; rfl
  · obtain ⟨hanswer, hfinished⟩ := hout.finished hended
    exact ⟨hanswer, hfinished.idle, hfinished.result⟩

end Sys2Proof

/-! One step (20_memory.md R70): which instruction a turn runs, what the strobes of a bus cycle do (30_encoding.md R84),
and that nothing stops but a reserved code (R86). -/

namespace Sys2Proof.Machine

/-! ## Which instruction a turn runs -/

/-- Settles O8: with one strobe the cycle is the transaction its word encodes. -/
theorem stepRunsHostTransaction : Obligations.StepRunsHostTransaction := by
  intro s c rest hturns hrst hone hlegal
  rw [step_of_host hturns, hostTurn_of_legal (s := { s with turns := rest }) hrst hlegal,
    performCycle_of_one_strobe hone]
  rfl

/-- Settles O9: a controller turn runs what `cs` decodes to, whatever is left on the list of turns. -/
theorem stepRunsMicroOperation : Obligations.StepRunsMicroOperation := by
  intro s i hnext hi
  rw [step_of_controller_next hnext]
  exact controllerTurn_of_decode (s := { s with turns := s.turns.tail }) hi

/-- The pins of a `BUS` word put the word back together (R81). -/
theorem busWord_cycleOfWord (w : BitVec 39) : busWord (cycleOfWord w) = w := busWordOf_fields w

theorem cycleOfWord_one_strobe (w : BitVec 39) : (cycleOfWord w).we ≠ (cycleOfWord w).re := by
  simp [cycleOfWord]

theorem withFetchWord_bus (s : State) (w : BitVec 39) :
    s.withFetchWord 40 w.toNat = { s with turns := .host (cycleOfWord w) :: s.turns } := by
  have hword : encodedOfTableWord 40 w.toNat = some (.bus w) := by
    simp [encodedOfTableWord, w.isLt]
  rw [State.withFetchWord, hword]
  rfl

theorem withFetchWord_uop (s : State) (c : StateCode) :
    s.withFetchWord 8 c.toNat = { s with cs := c, turns := .controller :: s.turns } := by
  have hword : encodedOfTableWord 8 c.toNat = some (.uop c) := by
    simp [encodedOfTableWord, c.isLt]
  rw [State.withFetchWord, hword]
  rfl

/-- Settles O10: the word laid out is the next turn's, and taking that turn off the list gives the state back. -/
theorem fetchedWordRuns : Obligations.FetchedWordRuns := by
  refine ⟨fun s w hlegal => ?_, fun s c i hi => ?_⟩
  · rw [withFetchWord_bus, step_of_host (s := { s with turns := .host (cycleOfWord w) :: s.turns }) rfl,
      hostTurn_of_legal rfl hlegal, performCycle_of_one_strobe (cycleOfWord_one_strobe w), busWord_cycleOfWord]
  · rw [withFetchWord_uop, step_of_controller (s := { s with cs := c, turns := .controller :: s.turns }) rfl]
    exact controllerTurn_of_decode (s := { s with cs := c }) hi

/-! ## The strobes of a cycle -/

/-- A bus cycle sees its offset only through the register it selects (R65). -/
theorem performCycle_congr_addr {c : BusCycle} {addr : Offset} (h : regOfOffset addr = regOfOffset c.addr) (s : State) :
    performCycle { c with addr := addr } s = performCycle c s := by
  have hdecode : decodeBus (busWord { c with addr := addr }) = decodeBus (busWord c) := by
    simp only [busWord, decodeBus, busWe_busWordOf, busOff_busWordOf, busData_busWordOf, h]
  simp only [performCycle, hdecode]

/-- `off & 0x3C` clears only the bits that are not examined (R65). -/
theorem regOfOffset_and (off : Offset) : regOfOffset (off &&& 0x3C#6) = regOfOffset off :=
  have hfield : ∀ off : Offset, (off &&& 0x3C#6).extractLsb' 2 4 = off.extractLsb' 2 4 := by decide
  regOfOffset_congr (hfield off)

/-- Settles O6: an offset acts through the register it selects, which its two low bits do not change. -/
theorem misalignedOffsetsFold : Obligations.MisalignedOffsetsFold := by
  refine ⟨fun off s => ?_, fun c s => ?_, fun off hwf => ?_⟩
  · rw [memRead, memRead, regOfOffset_and]
  · obtain ⟨t, ht, -⟩ := performCycle_busStep c s
    exact ⟨t, ht, (performCycle_congr_addr (regOfOffset_and c.addr) s).trans ht⟩
  · exact beq_iff_eq.mp (Bool.and_eq_true_iff.mp hwf).1

/-- No write returns data (R84), whether or not it stores something. -/
theorem writeConfig_busRdata (r : Reg) (d : Word) (s : State) : (writeConfig r d s).busRdata = none := by
  rw [writeConfig_frame]

theorem writeCtrl_busRdata (d : Word) (s : State) : (writeCtrl d s).busRdata = none := by
  rcases writeCtrl_cases d s with ⟨-, -, he⟩ | ⟨-, he⟩ <;> rw [he]
  · rcases actOnStart_cases (answerWrite s) with ⟨-, hrejected⟩ | ⟨-, -, haccepted⟩
    · rw [hrejected]; rfl
    · rw [haccepted]; rfl
  · rfl

theorem busWrite_busRdata (r : Reg) (d : Word) (s : State) : (busWrite r d s).busRdata = none :=
  match r with
  | .ctrl => writeCtrl_busRdata d s
  | .status | .result _ => rfl
  | .roundCount | .iterCount | .key _ | .block _ => writeConfig_busRdata _ d s

/-- Settles O11: the four combinations of the strobes, one by one. -/
theorem strobesOfACycle : Obligations.StrobesOfACycle := by
  intro s c rest hturns hrst hlegal
  have hstep : step s = performCycle c { s with turns := rest } :=
    (step_of_host hturns).trans (hostTurn_of_legal (s := { s with turns := rest }) hrst hlegal)
  rw [hstep]
  refine ⟨fun hw hr => ?_, fun hw hr => ?_, fun hw hr => ?_, fun hw hr => performCycle_of_no_strobe hw hr _⟩
  · rw [performCycle_of_one_strobe (by rw [hw, hr]; decide), busWord, hw, decodeBus_write, exec_writeInstr]
    exact ⟨_, rfl, busWrite_busRdata _ _ _⟩
  · rw [performCycle_of_one_strobe (by rw [hw, hr]; decide), busWord, hw, decodeBus_read, exec_readInstr]
    exact ⟨_, rfl, rfl⟩
  · rw [performCycle_of_both_strobes hw hr, busWord, hw, decodeBus_write, exec_writeInstr]
    exact ⟨_, _, rfl, rfl, rfl, rfl⟩

/-! ## What stops -/

/-- Settles O12: neither agent gets past a reserved code. -/
theorem reservedControllerStateFaults : Obligations.ReservedControllerStateFaults := by
  intro s hreserved hreset
  have hcontroller : ∀ ts, controllerTurn { s with turns := ts } = .fault (.reservedState s.cs) := fun ts => by
    rcases controllerTurn_cases { s with turns := ts } with ⟨hlegal, -⟩ | ⟨-, he⟩
    · rw [hreserved] at hlegal; cases hlegal
    · exact he
  match hturns : s.turns with
  | [] => rw [step_of_controller_next (.inl hturns)]; exact hcontroller _
  | .controller :: rest => rw [step_of_controller hturns]; exact hcontroller rest
  | .host c :: rest =>
    rw [step_of_host hturns, hostTurn, if_pos (hreset c rest hturns), hreserved]
    rfl

/-- Every instruction completes (R224). -/
theorem exec_completes (i : Instr) (s : State) : ∃ t, exec i s = .next t := by
  cases hbus : isBusInstr i with
  | true =>
    obtain ⟨f, -, hexec⟩ := exec_of_isBusInstr hbus
    exact ⟨f s, hexec s⟩
  | false =>
    obtain ⟨t, ht, -⟩ := exec_microStep hbus s
    exact ⟨t, ht⟩

theorem controllerTurn_completes {s : State} (hlegal : StateCode.legal s.cs = true) :
    ∃ t, controllerTurn s = .next t := by
  obtain ⟨-, t, -, ht, -⟩ := controllerTurn_microStep hlegal
  exact ⟨t, ht⟩

theorem hostTurn_completes (c : BusCycle) {s : State} (hlegal : StateCode.legal s.cs = true) :
    ∃ t, hostTurn c s = .next t := by
  cases hrst : c.rstN with
  | true =>
    obtain ⟨t, ht, -⟩ := performCycle_busStep c s
    exact ⟨t, (hostTurn_of_legal hrst hlegal).trans ht⟩
  | false => exact ⟨resetEngine s, by rw [hostTurn, hrst]; rfl⟩

/-- Settles O13: both agents complete from a legal code, since every instruction does. -/
theorem everyInstructionCompletes : Obligations.EveryInstructionCompletes := by
  refine ⟨exec_completes, fun s hlegal => ?_⟩
  match hturns : s.turns with
  | [] => rw [step_of_nil hturns]; exact controllerTurn_completes hlegal
  | .controller :: rest =>
    rw [step_of_controller hturns]; exact controllerTurn_completes (s := { s with turns := rest }) hlegal
  | .host c :: rest => rw [step_of_host hturns]; exact hostTurn_completes c (s := { s with turns := rest }) hlegal

end Sys2Proof.Machine

/-! Bus transactions (44_host_interface.md): what reads return, what writes of the configuration registers store and
leave alone, START after a configuration error, and the window as the host reads it. -/

namespace Sys2Proof.Machine

/-! ## Reads and count writes -/

/-- Settles O18: a read returns its register; without `DONE` the invariant has `RESULT` at 0. -/
theorem readsReturnTheRegister : Obligations.ReadsReturnTheRegister := by
  refine fun s n => ⟨rfl, rfl, rfl, rfl, rfl, fun h hdone => ?_⟩
  have hread : exec (.rdResult n) s = .next { s with busRdata := some (s.result.get n) } := rfl
  rw [hread, h.resultHidden hdone, Four.get_fill]

theorem writeConfig_of_idle (r : Reg) (d : Word) {s : State} (hb : s.busy = false) :
    writeConfig r d s = storeReg r d (answerWrite s) := by
  simp only [writeConfig, hb, Bool.false_eq_true, if_false]

/-- Settles O19: the store with no run in progress, and the dropped write during one. -/
theorem countWritesStoreData : Obligations.CountWritesStoreData := fun _ d =>
  ⟨fun hb => ⟨congrArg Host.Outcome.next (writeConfig_of_idle .roundCount d hb),
      congrArg Host.Outcome.next (writeConfig_of_idle .iterCount d hb)⟩,
    fun hb => ⟨exec_writeInstr_of_busy .roundCount d hb, exec_writeInstr_of_busy .iterCount d hb⟩⟩

/-! ## Blocks in their registers -/

/-- The bytes of the column that a register holds (R62). -/
theorem unpack_set_cell_toNat (v : Four Word) (n : Fin 4) (d : Word) (r : Fin 4) :
    ((unpack (v.set n d)).cell r n).toNat = d.toNat / 2 ^ (24 - 8 * r.val) % 256 := by
  rw [unpack_cell_toNat, Four.get_set_same]

/-- Settles O20: the store replaces register `n` of the bank, which holds column `n` of the block. -/
theorem keyAndBlockWritesSetAColumn : Obligations.KeyAndBlockWritesSetAColumn := fun s n d hb =>
  ⟨⟨_, congrArg Host.Outcome.next (writeConfig_of_idle (.key n) d hb), rfl, Four.get_set_same _ n d,
      unpack_set_cell_toNat s.key n d, fun _ hm => Four.get_set_ne _ d hm⟩,
    ⟨_, congrArg Host.Outcome.next (writeConfig_of_idle (.block n) d hb), rfl, Four.get_set_same _ n d,
      unpack_set_cell_toNat s.block n d, fun _ hm => Four.get_set_ne _ d hm⟩⟩

/-- The four registers that 32 hex digits fill (R89). -/
def digitsBank (digits : Nat) : Four Word := Four.ofFn (digitsWord digits)

theorem execSeq_cons {i : Instr} {is : List Instr} {s t : State} (h : exec i s = .next t) :
    execSeq (i :: is) s = execSeq is t := by
  rw [execSeq, h]

theorem exec_wrKey_of_idle (n : Fin 4) (d : Word) {s : State} (hb : s.busy = false) :
    exec (.wrKey n d) s = .next { s with key := s.key.set n d, busRdata := none } :=
  congrArg Host.Outcome.next (writeConfig_of_idle (.key n) d hb)

theorem exec_wrBlock_of_idle (n : Fin 4) (d : Word) {s : State} (hb : s.busy = false) :
    exec (.wrBlock n d) s = .next { s with block := s.block.set n d, busRdata := none } :=
  congrArg Host.Outcome.next (writeConfig_of_idle (.block n) d hb)

/-- The four writes of `WRBLK` fill the bank, one register after another (R89). -/
theorem execSeq_wrblk_key (digits : Nat) {s : State} (hb : s.busy = false) :
    execSeq ([0, 1, 2, 3].map fun n => .wrKey n (digitsWord digits n)) s =
      .next { s with key := digitsBank digits, busRdata := none } := by
  simp only [List.map_cons, List.map_nil, execSeq, exec_wrKey_of_idle, hb]
  rfl

theorem execSeq_wrblk_block (digits : Nat) {s : State} (hb : s.busy = false) :
    execSeq ([0, 1, 2, 3].map fun n => .wrBlock n (digitsWord digits n)) s =
      .next { s with block := digitsBank digits, busRdata := none } := by
  simp only [List.map_cons, List.map_nil, execSeq, exec_wrBlock_of_idle, hb]
  rfl

/-- A byte of a 32-bit word of a number is a byte of the number. -/
theorem byte_of_word (x a : Nat) {b : Nat} (hb : b + 8 ≤ 32) :
    (x >>> a % 2 ^ 32) / 2 ^ b % 256 = x / 2 ^ (a + b) % 256 := by
  have hsplit : 2 ^ 32 = 2 ^ b * 2 ^ (32 - b) := by rw [← Nat.pow_add]; congr 1; omega
  have hdvd : 256 ∣ 2 ^ (32 - b) := Nat.pow_dvd_pow (m := 8) 2 (by omega)
  rw [hsplit, Nat.mod_mul_right_div_self, Nat.mod_mod_of_dvd _ hdvd, Nat.shiftRight_eq_div_pow,
    Nat.div_div_eq_div_mul, ← Nat.pow_add]

/-- Byte number `k` of a bank filled with 32 hex digits is the number of digits `2k` and `2k+1` (R11, R89). -/
theorem blockByte_digitsBank (digits : Nat) (k : Fin 16) :
    (blockByte (unpack (digitsBank digits)) k).toNat = digits / 2 ^ (120 - 8 * k.val) % 256 := by
  have hcolumn : k.val / 4 < 4 := Nat.div_lt_of_lt_mul k.isLt
  have hshift : 96 - 32 * (k.val / 4) + (24 - 8 * (k.val % 4)) = 120 - 8 * k.val := by omega
  rw [blockByte_unpack (c := ⟨k.val / 4, hcolumn⟩) _ rfl, extractLsb'_byte_toNat, digitsBank, Four.get_ofFn, digitsWord,
    BitVec.toNat_ofNat, byte_of_word _ _ (by omega), hshift]

/-- Settles O7: the four writes leave the bank filled with the digits, whatever it held. -/
theorem writeBlockStoresTheHexForm : Obligations.WriteBlockStoresTheHexForm := fun digits s _ hb =>
  ⟨⟨_, { s with key := digitsBank digits, busRdata := none }, rfl, execSeq_wrblk_key digits hb, rfl,
      blockByte_digitsBank digits⟩,
    ⟨_, { s with block := digitsBank digits, busRdata := none }, rfl, execSeq_wrblk_block digits hb, rfl,
      blockByte_digitsBank digits⟩⟩

/-! ## START after a configuration error (60_exceptions.md R220 to R226) -/

/-- Settles O23: the error is recorded and `cs` stays IDLE, where a controller turn changes nothing. -/
theorem rejectedStart : Obligations.RejectedStart := by
  intro s d h hd hb hbad
  have hnotValid : ¬ countsValid s := fun ⟨hr, hi⟩ => hbad.elim hr.not_gt hi.not_gt
  have hstatus {r n : Bool} (hr : roundsInvalid s = r) (hn : itersInvalid s = n) :
      statusWord (raiseConfigError (roundsInvalid s) (itersInvalid s) (clearForStart (answerWrite s))) =
        (BitVec.ofBool n ++ BitVec.ofBool r ++ BitVec.ofBool false ++ BitVec.ofBool false).setWidth 32 :=
    statusWord_of_flags hb rfl hr hn
  refine ⟨_, congrArg Host.Outcome.next (writeCtrl_rejected hd hb hnotValid), hb, h.cs_of_not_busy hb, rfl,
    Four.get_fill _, ⟨rfl, rfl, rfl, rfl, rfl, rfl⟩, fun hr hi => ?_, fun hr hi => ?_, fun hr hi => ?_, ?_⟩
  · exact hstatus (decide_eq_true hr) (decide_eq_false hi.not_gt)
  · exact hstatus (decide_eq_false hr.not_gt) (decide_eq_true hi)
  · exact hstatus (decide_eq_true hr) (decide_eq_true hi)
  · rw [step_of_nil rfl]
    exact controllerTurn_of_idle (h.cs_of_not_busy hb)

/-- After an accepted START `BUSY` is the only flag set (R191). -/
theorem statusWord_acceptStart (s : State) : statusWord (acceptStart (clearForStart s)) = 0x00000001#32 := by
  have hdone : (acceptStart (clearForStart s)).done = false := rfl
  rw [statusWord_of_flags (acceptStart_busy _) hdone (acceptStart_errRounds _) (acceptStart_errIters _)]
  rfl

/-- Settles O24: the two stores are not dropped, and the START that follows finds both counts good. -/
theorem recoveryFromConfigError : Obligations.RecoveryFromConfigError := by
  intro s rounds iters hb hr hi
  obtain ⟨hrounds, -⟩ := (countWritesStoreData s rounds).1 hb
  obtain ⟨-, hiters⟩ := (countWritesStoreData { s with roundCount := rounds, busRdata := none } iters).1 hb
  have hstart : ∀ t : State, t.busy = false → countsValid t →
      exec (.wrCtrl 0x00000001#32) t = .next (acceptStart (clearForStart (answerWrite t))) :=
    fun t hbt hvalid => congrArg Host.Outcome.next (writeCtrl_accepted rfl hbt hvalid)
  exact ⟨_, (execSeq_cons hrounds).trans ((execSeq_cons hiters).trans (execSeq_cons (hstart _ hb ⟨hr, hi⟩))),
    statusWord_acceptStart _, rfl, rfl, rfl⟩

end Sys2Proof.Machine

/-! The window as the host reads it (20_memory.md R60, R67): what a transaction leaves readable, and that repeating it
changes nothing more. -/

namespace Sys2Proof.Machine

/-! ## What a write leaves readable -/

/-- The registers that the host configures a run with (R24 to R27). -/
def isConfig (r : Reg) : Prop := r = .roundCount ∨ r = .iterCount ∨ (∃ n, r = .key n) ∨ ∃ n, r = .block n

theorem readReg_answerWrite (r : Reg) (s : State) : readReg r (answerWrite s) = readReg r s := by
  cases r <;> rfl

theorem readReg_writeConfig_ne {r r' : Reg} (d : Word) (s : State) (h : r' ≠ r) :
    readReg r' (writeConfig r d s) = readReg r' s := by
  rcases writeConfig_cases r d s with ⟨-, he⟩ | ⟨-, he⟩ <;> rw [he]
  · exact readReg_answerWrite r' s
  · rw [readReg_storeReg_ne _ _ _ _ h, readReg_answerWrite]

/-- A write but of `CTRL` changes no other register (R193 to R205). -/
theorem readReg_busWrite_ne {r r' : Reg} (d : Word) (s : State) (hctrl : r ≠ .ctrl) (h : r' ≠ r) :
    readReg r' (busWrite r d s) = readReg r' s := by
  cases r with
  | ctrl => exact absurd rfl hctrl
  | status | result n => exact readReg_answerWrite r' s
  | roundCount | iterCount | key n | block n => exact readReg_writeConfig_ne d s h

/-- START changes `STATUS` and `RESULT` only (R191). -/
theorem readReg_writeCtrl {r : Reg} (d : Word) (s : State) (hstatus : r ≠ .status) (hresult : ∀ n, r ≠ .result n) :
    readReg r (writeCtrl d s) = readReg r s := by
  have hstart : readReg r (actOnStart (answerWrite s)) = readReg r s := by
    rcases actOnStart_cases (answerWrite s) with ⟨-, he⟩ | ⟨-, -, he⟩ <;> rw [he] <;>
    cases r with
    | status => exact absurd rfl hstatus
    | result n => exact absurd rfl (hresult n)
    | _ => rfl
  rcases writeCtrl_cases d s with ⟨-, -, he⟩ | ⟨-, he⟩ <;> rw [he]
  · exact hstart
  · exact readReg_answerWrite r s

/-- Offsets 0x08 to 0x2F are those of the configuration registers (R21). -/
theorem isConfig_regOfOffset : ∀ off : Offset, 0x08 ≤ off.toNat → off.toNat < 0x30 → isConfig (regOfOffset off) := by
  unfold isConfig; decide

/-- The register tells `OFF[5:2]` (R21, R83). -/
theorem extractLsb'_regOffset : ∀ off : Offset,
    (regOffset (regOfOffset off)).extractLsb' 2 4 = off.extractLsb' 2 4 := by
  decide

/-- With no run in progress a configuration register reads back what was written (R197 to R203). -/
theorem readReg_busWrite_same {r : Reg} (d : Word) {s : State} (hb : s.busy = false) (hr : isConfig r) :
    readReg r (busWrite r d s) = d := by
  have hwrite : busWrite r d s = storeReg r d (answerWrite s) := by
    rcases hr with rfl | rfl | ⟨n, rfl⟩ | ⟨n, rfl⟩ <;> exact writeConfig_of_idle _ d hb
  rw [hwrite, readReg_storeReg_same r d _ hr]

theorem exec_decodeBus_of_write {w : BitVec 39} (hw : busWe w = true) (s : State) :
    exec (decodeBus w) s = .next (busWrite (regOfOffset (busOff w)) (busData w) s) := by
  rw [exec_decodeBus, if_pos hw]

theorem exec_decodeBus_of_read {w : BitVec 39} (hw : busWe w = false) (s : State) :
    exec (decodeBus w) s = .next (busRead (regOfOffset (busOff w)) s) := by
  rw [exec_decodeBus, hw]; rfl

/-- Settles O25: the window is read register by register. -/
theorem windowWriteFrame : Obligations.WindowWriteFrame := by
  intro w s t hw h
  rw [exec_decodeBus_of_write hw] at h
  obtain rfl := Host.Outcome.next.inj h
  refine ⟨fun hctrl off hne => ?_, fun hctrl off hstatus hresult => ?_, fun hb hlow hhigh => ?_⟩
  · refine readReg_busWrite_ne _ s hctrl fun hsame => hne ?_
    rw [← extractLsb'_regOffset off, hsame, extractLsb'_regOffset]
  · rw [memRead, hctrl]
    exact readReg_writeCtrl _ s hstatus hresult
  · exact readReg_busWrite_same _ hb (isConfig_regOfOffset _ hlow hhigh)

/-! ## Repeated transactions (R67) -/

theorem busRead_busRead (r : Reg) (s : State) : busRead r (busRead r s) = busRead r s := by
  rw [busRead, readReg_busRead]; rfl

theorem storeReg_storeReg (r : Reg) (d : Word) (s : State) : storeReg r d (storeReg r d s) = storeReg r d s := by
  cases r <;> simp [storeReg]

theorem answerWrite_storeReg (r : Reg) (d : Word) (s : State) :
    answerWrite (storeReg r d (answerWrite s)) = storeReg r d (answerWrite s) := by
  cases r <;> rfl

theorem storeReg_busy (r : Reg) (d : Word) (s : State) : (storeReg r d s).busy = s.busy := by
  rw [storeReg_frame]

theorem writeConfig_writeConfig (r : Reg) (d : Word) (s : State) :
    writeConfig r d (writeConfig r d s) = writeConfig r d s := by
  rcases writeConfig_cases r d s with ⟨hb, he⟩ | ⟨hb, he⟩ <;> rw [he]
  · exact if_pos hb
  · rw [writeConfig_of_idle r d (by rw [storeReg_busy]; exact hb), answerWrite_storeReg, storeReg_storeReg]

theorem busWrite_busWrite {r : Reg} (d : Word) (s : State) (hctrl : r ≠ .ctrl) :
    busWrite r d (busWrite r d s) = busWrite r d s := by
  cases r with
  | ctrl => exact absurd rfl hctrl
  | status | result n => rfl
  | roundCount | iterCount | key n | block n => exact writeConfig_writeConfig _ d s

/-- Settles O26: a read returns what the window reads, which it does not change, and a second write stores the same. -/
theorem repeatedTransactions : Obligations.RepeatedTransactions := by
  intro w s t h
  refine ⟨fun hw => ?_, fun hw hctrl => ?_⟩
  · rw [exec_decodeBus_of_read hw] at h ⊢
    obtain rfl := Host.Outcome.next.inj h
    exact ⟨rfl, congrArg Host.Outcome.next (busRead_busRead _ s)⟩
  · rw [exec_decodeBus_of_write hw] at h ⊢
    obtain rfl := Host.Outcome.next.inj h
    exact congrArg Host.Outcome.next (busWrite_busWrite _ s hctrl)

end Sys2Proof.Machine

/-! Control transfers (43_round_controller.md R160, R171): the successor of every controller state, and what the
micro-operations leave to the host. -/

namespace Sys2Proof.Machine

/-! ## Micro-operations and the host's registers -/

/-- Settles O42: each effect names the fields it changes. -/
theorem microOperationsLeaveHostRegisters : Obligations.MicroOperationsLeaveHostRegisters := by
  intro i s t hi h
  cases microStep_of_exec hi h with
  | finish => exact ⟨rfl, rfl, rfl, rfl, rfl, rfl, rfl, fun hne => absurd rfl hne⟩
  | _ => exact ⟨rfl, rfl, rfl, rfl, rfl, rfl, rfl, fun _ => ⟨rfl, rfl, rfl⟩⟩

/-! ## Successors -/

/-- The successor of a controller state (R171). -/
def successor (s : State) (c : StateCode) : StateCode :=
  if c = csIdle then csIdle
  else if c = csLoad ∨ c = csChain then csSnap
  else if c = csSnap then csKinit
  else if c = csKinit then csWhiten
  else if c = csWhiten then csSubshift
  else if c = csSubshift then if s.round.toNat < s.roundCount.toNat then csMixcol else csKexp
  else if c = csMixcol then csKexp
  else if c = csKexp then csArk
  else if c = csArk then
    if s.round.toNat < s.roundCount.toNat then csSubshift
    else if s.iter.toNat < s.iterCount.toNat then csChain else csFinish
  else csIdle

theorem MicroStep.cs_eq_successor {i : Instr} {s t : State} (h : MicroStep i s t) (hi : encode i = .uop s.cs) :
    t.cs = successor s s.cs := by
  have hcs {c : StateCode} (hc : encode i = .uop c) : s.cs = c := cs_of_encode hi hc
  cases h with
  | idle | load | chain | snap | kinit | whiten | mixcol | kexp | finish => rw [hcs rfl]; rfl
  | subshiftInner hlt => rw [hcs rfl]; exact (if_pos (BitVec.lt_def.mp hlt)).symm
  | subshiftFinal hge => rw [hcs rfl]; exact (if_neg (mt BitVec.lt_def.mpr hge)).symm
  | arkNextRound hlt => rw [hcs rfl]; exact (if_pos (BitVec.lt_def.mp hlt)).symm
  | arkNextIteration hge hlt =>
    rw [hcs rfl]
    exact ((if_neg (mt BitVec.lt_def.mpr hge)).trans (if_pos (BitVec.lt_def.mp hlt))).symm
  | arkFinish hroundGe hiterGe =>
    rw [hcs rfl]
    exact ((if_neg (mt BitVec.lt_def.mpr hroundGe)).trans (if_neg (mt BitVec.lt_def.mpr hiterGe))).symm

/-- Of the bus transactions only an accepted START moves the controller, to LOAD (R191). -/
theorem exec_wrCtrl_cs {d : Word} {s t : State} (h : exec (.wrCtrl d) s = .next t) :
    t.cs = s.cs ∨ t.cs = csLoad ∧ startAccepted d s := by
  obtain rfl := Host.Outcome.next.inj h
  by_cases hstart : startAccepted d s
  · obtain ⟨hd, hb, hvalid⟩ := hstart
    exact .inr ⟨by rw [writeCtrl_accepted hd hb hvalid]; rfl, hd, hb, hvalid⟩
  · rcases writeCtrl_cases d s with ⟨hd, hb, -⟩ | ⟨-, he⟩
    · rw [writeCtrl_rejected hd hb fun hvalid => hstart ⟨hd, hb, hvalid⟩]
      exact .inl rfl
    · rw [he]
      exact .inl rfl

theorem writeConfig_cs (r : Reg) (d : Word) (s : State) : (writeConfig r d s).cs = s.cs := by
  rw [writeConfig_frame]

theorem exec_bus_cs {i : Instr} {s t : State} (hi : isBusInstr i = true) (h : exec i s = .next t) :
    t.cs = s.cs ∨ t.cs = csLoad ∧ ∃ d, i = .wrCtrl d ∧ startAccepted d s := by
  rcases readInstr_or_writeInstr_of_isBusInstr hi with ⟨r, rfl⟩ | ⟨r, d, rfl⟩
  · rw [exec_readInstr] at h
    cases h
    exact .inl rfl
  · cases r with
    | ctrl => exact (exec_wrCtrl_cs h).imp_right fun ⟨hload, hstart⟩ => ⟨hload, d, rfl, hstart⟩
    | status | result n => cases h; exact .inl rfl
    | roundCount | iterCount | key n | block n => cases h; exact .inl (writeConfig_cs _ d s)

/-- Settles O41: the table is `successor`, read at each code. -/
theorem successorTable : Obligations.SuccessorTable := by
  refine fun i s t h => ⟨fun hi => ?_, fun hi => exec_bus_cs hi h⟩
  have hsuccessor := (microStep_of_exec (isBusInstr_of_encode_uop hi) h).cs_eq_successor hi
  refine ⟨?_, ?_, ?_, ?_, ?_, ?_, ?_, ?_, ?_, ?_, ?_⟩ <;> intro hcs <;> rw [hsuccessor, hcs] <;> rfl

/-! ## IDLE (R160) -/

/-- Settles O30: a controller turn in IDLE is no step, and of the instructions named only START moves the controller. -/
theorem idleTakesNoStep : Obligations.IdleTakesNoStep := by
  refine ⟨fun s => rfl, fun s hcs hnext => ?_, fun i s t hi hcs h hne => ?_⟩
  · rw [step_of_controller_next hnext]
    exact controllerTurn_of_idle (s := { s with turns := s.turns.tail }) hcs
  · rcases hi with hbus | rfl
    · exact (exec_bus_cs hbus h).resolve_left fun hsame => hne (hsame.trans hcs)
    · obtain rfl := Host.Outcome.next.inj h
      exact absurd hcs hne

end Sys2Proof.Machine

/-! The datapath functions (40_gf_sbox.md, 41_block_transform.md, 42_key_schedule.md), byte by byte, and the runs with
one round or one iteration (43_round_controller.md R177, R178). -/

namespace Sys2Proof.Machine

/-! ## The tables -/

/-- A number whose bit `n` tells whether `n` is in the list. -/
def bitsOf (l : List Nat) : Nat := l.foldr (fun n m => 2 ^ n ||| m) 0

theorem mem_of_testBit_bitsOf {l : List Nat} {n : Nat} (h : (bitsOf l).testBit n = true) : n ∈ l := by
  induction l with
  | nil => simp [bitsOf] at h
  | cons a l ih =>
    rw [bitsOf, List.foldr_cons, ← bitsOf, Nat.testBit_or, Nat.testBit_two_pow, Bool.or_eq_true, decide_eq_true_eq] at h
    rcases h with rfl | h
    · exact List.mem_cons_self
    · exact List.mem_cons_of_mem a (ih h)

/-- The entries of the table in order, as numbers (R100). -/
def sboxEntries : List Nat := (List.range 256).map fun n => (sbox (BitVec.ofNat 8 n)).toNat

/-- The entries are all the numbers below 256. -/
theorem bitsOf_sboxEntries : bitsOf sboxEntries = 2 ^ 256 - 1 := by
  decide +kernel

theorem sbox_surjective : Function.Surjective sbox := by
  intro c
  have hbit : (bitsOf sboxEntries).testBit c.toNat = true := by
    rw [bitsOf_sboxEntries, Nat.testBit_two_pow_sub_one]
    exact decide_eq_true c.isLt
  obtain ⟨n, -, hn⟩ := List.mem_map.mp (mem_of_testBit_bitsOf hbit)
  exact ⟨BitVec.ofNat 8 n, BitVec.eq_of_toNat_eq hn⟩

theorem sbox_ne_self : ∀ b : Byte, sbox b ≠ b := by
  decide

/-- Settles O44: on a finite type a surjection is a bijection; that no entry is its own place is read off the table. -/
theorem substitutionIsABijection : Obligations.SubstitutionIsABijection :=
  ⟨Finite.surjective_iff_bijective.mp sbox_surjective, sbox_ne_self⟩

/-- Settles O46: the ten entries are evaluated. -/
theorem roundConstantsChain : Obligations.RoundConstantsChain := by
  unfold Obligations.RoundConstantsChain
  decide

/-! ## `xtime` -/

/-- The reduction of a product by `x` that overflows the byte (R101). -/
def reduction (top : Bool) : Byte := if top then 0x1B#8 else 0x00#8

theorem xtime_eq (b : Byte) : xtime b = (b <<< 1) ^^^ reduction (b.getLsbD 7) := by
  unfold xtime reduction
  split <;> simp

theorem reduction_xor (p q : Bool) : reduction (p ^^ q) = reduction p ^^^ reduction q := by
  revert p q; decide

/-- Settles O45: the shift and the reduction are linear each (R105). -/
theorem xtimeIsLinear : Obligations.XtimeIsLinear := by
  intro a b
  rw [xtime_eq, xtime_eq, xtime_eq, BitVec.shiftLeft_xor_distrib, BitVec.getLsbD_xor, reduction_xor]
  ac_rfl

/-! ## The block transform -/

/-- Settles O47: row `k mod 4`, column `k div 4` takes the byte that many columns on. -/
theorem shiftRowsMovesByteNumbers : Obligations.ShiftRowsMovesByteNumbers := by
  intro A k src hsrc
  have hrow : src.val % 4 = k.val % 4 := by omega
  have hcolumn : src.val / 4 = (k.val / 4 + k.val % 4) % 4 := by omega
  unfold blockByte
  rw [shiftRows_cell]
  congr 1
  · exact Fin.ext hrow.symm
  · exact Fin.ext hcolumn.symm

/-- Settles O48: both orders substitute the byte that ShiftRows moves there. -/
theorem subBytesCommutesWithShiftRows : Obligations.SubBytesCommutesWithShiftRows := fun A =>
  Block.ext_cell fun r c => by rw [shiftRows_cell, subBytes_cell, subBytes_cell, shiftRows_cell]

/-- Settles O49: a byte XORed twice is as before. -/
theorem addRoundKeyIsSelfInverse : Obligations.AddRoundKeyIsSelfInverse := fun A Kr =>
  Block.ext_cell fun r c => by
    rw [addRoundKey_cell, addRoundKey_cell, BitVec.xor_assoc, BitVec.xor_self, BitVec.xor_zero]

/-! ## The micro-operations of these functions -/

/-- Settles O32: CHAIN is AddRoundKey of `W` and `P`, whose bytes are the XORs. -/
theorem chainStep : Obligations.ChainStep := fun s =>
  ⟨{ s with w := addRoundKey s.w s.p, cs := csSnap }, rfl, rfl, addRoundKey_cell s.w s.p⟩

/-- MixColumns in terms of `xtime` (R127). -/
theorem mixColumns_cell (A : Block) (r c : Fin 4) :
    (mixColumns A).cell r c =
      xtime (A.cell r c) ^^^ xtime (A.cell (r + 1) c) ^^^ A.cell (r + 1) c ^^^ A.cell (r + 2) c ^^^
        A.cell (r + 3) c := by
  rw [Block.cell, mixColumns_get, mixColumn_get, gmul2, gmul3, ← BitVec.xor_assoc]
  rfl

/-- Settles O37: MIXCOL is MixColumns of `W`. -/
theorem mixcolStep : Obligations.MixcolStep := fun s =>
  ⟨{ s with w := mixColumns s.w, cs := csKexp }, rfl, rfl, mixColumns_cell s.w⟩

/-! ## The key schedule -/

theorem roundKey_succ (key : Block) (j : Nat) :
    roundKey key (j + 1) =
      (deriveKey (roundKey key j).1 (roundKey key j).2, advanceCursor (roundKey key j).2) := rfl

/-- The cursor counts the steps modulo `RCON_LEN` (R147). -/
theorem roundKey_cursor_toNat (key : Block) (j : Nat) : (roundKey key j).2.toNat = j % Config.rconLen := by
  induction j with
  | zero => rfl
  | succ j ih => rw [roundKey_succ, advanceCursor_toNat, ih, Nat.mod_add_mod]

/-- Settles O50: the step to round key `j + 1` uses the cursor, which is `j mod RCON_LEN`. -/
theorem roundKeysReuseTheConstants : Obligations.RoundKeysReuseTheConstants := by
  intro key j
  have hcursor : BitVec.ofNat 4 (j % Config.rconLen) = (roundKey key j).2 := by
    rw [← roundKey_cursor_toNat key j, BitVec.ofNat_toNat, BitVec.setWidth_eq]
  exact ⟨rfl, roundKey_cursor_toNat key j, by rw [hcursor, roundKey_succ]⟩

/-! ## One round, one iteration -/

/-- Settles O56: MIXCOL is for a round below the last and CHAIN for an iteration above the first; the functions of R173
and R174 are unfolded once. -/
theorem boundaryCounts : Obligations.BoundaryCounts := by
  refine ⟨fun s h hone hcs => ?_, fun s h hb hone hcs => ?_, fun A key => rfl, fun key blk R => rfl⟩
  · have hround : oneTo s.round s.roundCount := h.roundInRange (hcs ▸ rfl)
    have hinner := h.mixcolRound hcs
    have hfirst := hround.1
    omega
  · have hiter := h.iterInRange hb (hcs ▸ by decide)
    have hsecond := h.chainIter hcs
    omega

end Sys2Proof.Machine
